-- ==== Sys2Proof/Word.lean ====
section
/-!
DEFINITION. The word types of the model.
-/

namespace Sys2Proof

/-- A byte of a memory, of a frame or of a host buffer. -/
abbrev Byte := BitVec 8

/-- A 32-bit register (R14). -/
abbrev Word := BitVec 32

/-- A 64-bit counter, address or time value. -/
abbrev DWord := BitVec 64

/-- A sparse table: the listed keys with their values, in rising order of the keys. What an unlisted
key reads as is fixed by the operations that read the table. -/
abbrev Sparse (α : Type) := List (Nat × α)

/-- The channel instances CH0 to CH16 of a G16 (R2, R628). -/
abbrev ChanId := Fin 17

end Sys2Proof
end

