-- ==== Sys2Proof/Syntax.lean ====
section
/-!
DEFINITION. The commands of the block, one constructor per row of the opcode table, and the operands that
stand for what the world outside hands the block: what arrives on a line, what host memory answers, what
an error-correcting code finds.
-/

namespace Sys2Proof

/-- What retention did to a byte of a retention group (R487): the bits that changed, as its reads show them in step 4 of
wake. Rows lie one after another from `addr` 0. -/
structure SealFlip where
  group : Fin 50
  addr  : Fin 262144
  mask  : BitVec 8
  deriving DecidableEq, Repr

/-- What the ECC finds in a memory read of a command (R254, R266, R335): the tree node, the address in
context memory, or the cell, whose word is in error; `otherUe` is an uncorrectable error of the staging buffer,
the firmware image buffer or the log (R518). -/
inductive EccFault where
  | none
  | treeCe (node : Fin 65536)
  | treeUe (node : Fin 65536)
  | ctxCe (addr : Fin 0x180000)
  | ctxUe (addr : Fin 0x180000)
  | bufCe (cell : Fin 12288)
  | bufUe (cell : Fin 12288)
  | otherUe
  deriving DecidableEq, Repr

/-- A channel, and what the ECC finds in the memory reads that the command makes of it (R254, R266, R315, R336). -/
structure ReadBy where
  chan : ChanId
  ecc  : EccFault
  deriving DecidableEq, Repr

/-- A channel, and what the ECC finds in the rows that the migration copier reads for it (R336, R528). -/
structure CopyReads where
  chan : ChanId
  eccs : List EccFault
  deriving DecidableEq, Repr

/-- The retention groups in whose reads at a wake the ECC finds uncorrectable and correctable errors (R489). -/
structure SealErrs where
  ues : List (Fin 50)
  ces : List (Fin 50)
  deriving DecidableEq, Repr

/-- An edge at a capture input: its direction, and its place within the STU cycle in units of 125 ps (R455). -/
structure Edge where
  rising : Bool
  place  : Fin 8
  deriving DecidableEq, Repr

/-- The framer's sync state of a channel in a cycle outside a line frame's start (R595, R596). -/
structure FramerWord where
  chan : ChanId
  sync : Bool
  deriving DecidableEq, Repr

/-- What the header error correction of a protected item finds (R93, R99, R181). -/
inductive Hec where
  | ok
  | corrected
  | uncorr
  deriving DecidableEq, Repr

/-- A mailbox command record as firmware reads it (R554): its word 0, its TAG and its ARGS. The operands of the row hold
what stands at the places of the command's arguments; `args` counts at every other place. `ecc` is what the ECC finds in
the reads of the cell table that the command makes (R315). (DEDUCED, log entry 107) -/
structure CmdHead where
  word0 : Word
  tag   : Word
  args  : BitVec 448
  ecc   : EccFault
  deriving DecidableEq, Repr

/-- An allocation structure of a bandwidth map, as its bits arrive (R179, R180). -/
structure MapEntry where
  raw : BitVec 128
  hec : Hec
  deriving DecidableEq, Repr

/-- What the cipher engine returns for an upstream envelope (R602 to R605): the payload, its counter in
EXT_100, an engine error, and how many late returns it counts. -/
structure CipherRet where
  payload : List Byte
  seed    : DWord
  err     : Bool
  late    : Nat
  deriving DecidableEq, Repr

/-- A fault of a staging read in a burst: an uncorrectable error, or data not there in time, from byte `i`
on (R204, R605). -/
inductive StageFault where
  | none
  | ecc (i : Nat)
  | miss (i : Nat)
  deriving DecidableEq, Repr

/-- What a downstream management message of the standard in use makes firmware do (R145, R155 to R157). -/
inductive MgmtAct where
  | profile (p : Fin 8) (psb : BitVec 12) (fec valid : Bool)
  | preEqd (v : Word)
  | assignId (id : Fin 1023)
  | ranged (v : Word)
  | eqdAdjust (neg : Bool) (d : Word)
  | registered
  | withdrawId
  | allocAssign (id : BitVec 14)
  | allocRelease (id : BitVec 14)
  | headEnd (id : Word)
  | emergencyStop
  | emergencyEnd
  | sleep (v : Bool)
  | keySlots (set : Byte) (slots : BitVec 2)
  deriving DecidableEq, Repr

/-- A line frame as it begins (R80, R86 to R98): its superframe counter; the bytes of its decoded content;
the framer's sync state at the marker; whether it comes before the content before it was complete; the 8 bytes
that open its header, or none when the next marker cuts the header short; what the header check of the
standards modes finds; the map and the management messages; and the words, by number, that are flagged
FEC-uncorrectable. -/
structure LineIn where
  sfc    : BitVec 51
  len    : Nat
  sync   : Bool
  trunc  : Bool
  header : Option DWord
  hec    : Hec
  map    : List MapEntry
  msgs   : List (List Byte)
  flagged : List Nat
  deriving DecidableEq, Repr

/-- A host read of a channel's ring engine: a doorbell line, or descriptor slots of a queue from an index on. -/
inductive ReadWhat where
  | doorbell (line : Fin 36)
  | desc (tx : Bool) (queue : Fin 256) (idx : Word)
  deriving DecidableEq, Repr

/-- A host read that waits for its data (R587). A buffer read of a frame's storage has stored some bytes; a
mover set's goes on when it is retried, with what host memory then holds. -/
inductive HostRead where
  | ring (c : ChanId) (what : ReadWhat)
  | txBuffer (c : ChanId) (queue : Fin 256) (stored : List Byte)
  | mover (n : Fin 8) (good : Nat) (host : List Byte)
  | command
  deriving DecidableEq, Repr

/-- An ordered write stream: of a channel, of the Headland, or of a mover set (R586). -/
inductive StreamId where
  | chan (c : ChanId)
  | headland
  | mover (n : Fin 8)
  deriving DecidableEq, Repr

/-- Who asks for a wake (R475): a write of CH_PWR_CTL, or firmware. -/
inductive WakeBy where
  | host (v : Word)
  | firmware
  deriving DecidableEq, Repr

/-- An aligned access through an indirect window (R642), by the number of its word. -/
inductive WinAcc where
  | read32 (i : Fin 16384)
  | read64 (i : Fin 8192)
  | write32 (i : Fin 16384) (w : Word)
  | write64 (i : Fin 8192) (v : DWord)
  deriving DecidableEq, Repr

/-- An image slot of the persist device, as it is found when the boot ROM looks at it (R566, R568). -/
structure BootSlot where
  valid   : Bool
  svn     : BitVec 16
  version : Word
  regMin  : BitVec 16
  regCur  : BitVec 16
  deriving DecidableEq, Repr

/-- The images, the accepted slot, the monotonic counter and the ageing references that the persist device holds (R620),
and how many of the reads of the start it answers with ERROR (R619). -/
structure BootDev where
  slotA    : BootSlot
  slotB    : BootSlot
  accepted : Bool
  counter  : BitVec 16
  ageing   : List Word
  errors   : Nat
  deriving DecidableEq, Repr

/-- The commands: one constructor per row of the opcode table, in its order. Each docstring gives the row's
rule and its summary. -/
inductive Instr where
  /-- R20, REGISTER_WRITE: A target-side write to a register that has no row of its own takes effect by the
  access type of each field. -/
  | registerWrite (addr : BitVec 21) (wide : Bool) (v : DWord)
  /-- R26, COUNTER_LOW_READ: A 32-bit read of the low word of a 64-bit counter or pair latches the high word
  for later high-word reads. -/
  | counterLowRead (addr : BitVec 21)
  /-- R46, STOPPED_ACCESS: An access to a core-island area of a channel whose clock is stopped completes at
  once: reads return zero, writes are discarded, and the stopped-access counter increments. -/
  | stoppedAccess (c : ChanId) (off : BitVec 16) (wide : Bool) (write : Option DWord)
  /-- R71, ACCESS_TIMEOUT: A channel register access not served within 4 µs is completed by the host port
  island with all ones or discarded, and ACCESS_TIMEOUT is raised. -/
  | accessTimeout (c : ChanId) (wide read : Bool)
  /-- R593, UNALIGNED_TARGET_ACCESS: A target access not aligned to its size completes with RSP_ERR and
  HL_CNT_HP_TGT_BAD increments. -/
  | unalignedTargetAccess (addr : BitVec 21) (wide : Bool) (write : Option DWord)
  /-- R58, ENABLE: A write of CH_MODE_CTL.ENABLE = 1 moves a Disabled channel to Acquire, unless it is fallow
  or firmware is not running. -/
  | enable (c : ChanId) (fastOk : Bool)
  /-- R61, ORDERLY_DISABLE: A write clearing ENABLE in Acquire or Service starts the orderly disable: payload
  stops, queues are taken down, and work is flushed. -/
  | orderlyDisable (c : ReadBy) (fastOk : Bool)
  /-- R61, DISABLE_COMPLETE: The orderly disable ends once owed completions are written and every cell is
  freed, and the channel enters Disabled. -/
  | disableComplete (c : ReadBy)
  /-- R73, CH_RESET_GO: A write of CH_RESET.GO with the guard 0x5A17 starts a channel reset. Any other guard
  is refused and counted. -/
  | chResetGo (c : ChanId) (v : Word)
  /-- R636, HL_RST_CHAN_REQ: Writing 1 to a REQ bit of HL_RST_CHAN starts a channel reset of that channel in
  every mode. -/
  | hlRstChanReq (mask : BitVec 17)
  /-- R75, CHANNEL_RESET_DONE: The channel reset completes: SRAM is zeroed, the channel enters Disabled, DONE
  sets and CHAN_RESET_DONE is raised. -/
  | channelResetDone (c : ChanId)
  /-- R549, WEDGE_DETECT: A channel's heartbeat that has not advanced for TIMEOUT_US marks it wedged and
  raises WEDGE. -/
  | wedgeDetect (c : ChanId)
  /-- R633, HL_RST_DEVICE_GO: A write of HL_RST_DEVICE.GO with the guard requests a device reset 1 µs later.
  Any other guard is refused and counted. -/
  | hlRstDeviceGo (v : Word)
  /-- R634, RST_N_ASSERT: Assertion of the RST_N pin holds the whole block in device reset. -/
  | rstNAssert
  /-- R647, DEVICE_RESET_DONE: After the device reset ends, SRAM is zeroed and registers take their reset
  values within 10 µs. -/
  | deviceResetDone
  /-- R648, FW_BOOT: Firmware starts from the boot ROM, writes BOOT, reloads retirement maps and identity
  records, and reaches RUNNING, or stays in NO_IMAGE. -/
  | fwBoot (dev : Option BootDev)
  /-- R83, DS_CFG_WRITE: A write to CH_DS_CFG takes effect only in Disabled and is discarded otherwise. -/
  | dsCfgWrite (c : ChanId) (v : Word)
  /-- R90, LINE_FRAME_START: A start marker with its SFC begins a line frame: EQD is latched, a truncated
  previous frame is ended, and the guard evaluates the frame. -/
  | lineFrameStart (c : ChanId) (x : LineIn)
  /-- R89, FRAMER_SYNC_LOSS: The framer leaving Sync drops the guard to NOSYNC and discards the envelope in
  progress. The operand gives the framer's sync state in the cycle, so a gain is taken too (R92, R595). -/
  | framerSyncLoss (w : FramerWord)
  /-- R99, ENVELOPE_RX: An envelope is delineated, HEC-checked, port-filtered, key-checked and passed on
  toward decryption and reassembly. -/
  | envelopeRx (c : ChanId) (hdr : DWord) (hec : Hec) (counter : DWord) (payload : List Byte) (ecc : EccFault)
  /-- R114, CIPHER_RETURN: The cipher engine returns a decrypted envelope, whose seed is checked before
  reassembly. -/
  | cipherReturn (c : ChanId) (seedA : DWord) (seedB : Word) (plain : List Byte) (err : Bool) (late : Nat) (ecc : EccFault)
  /-- R119, REASM_TIMEOUT: The reassembly sweep closes a partial frame older than AGE line-frame periods with
  REASM_TIMEOUT. -/
  | reasmTimeout (c : ChanId) (ctx : Fin 16384) (ecc : EccFault)
  /-- R212, PAUSE_TIMER_EXPIRY: A PAUSE or PFC timer runs out and its queues are unpaused. -/
  | pauseTimerExpiry (c : ChanId) (n : Fin 9)
  /-- R145, DS_MGMT_MESSAGE: Firmware processes a downstream management message and moves the activation
  state, EQD, terminal ID or allocations. -/
  | dsMgmtMessage (c : ChanId) (ok : Bool) (acts : List MgmtAct) (replies : List (List Byte))
  /-- R145, TO1_EXPIRY: The ranging timer expires in RANGING, discards the terminal ID and returns to
  SERIAL_NUMBER. -/
  | to1Expiry (c : ChanId)
  /-- R145, TO2_EXPIRY: The downstream loss timer expires in LODS and the channel moves from Service to
  Acquire. -/
  | to2Expiry (c : ChanId)
  /-- R166, FAST_REENTRY_ACCEPT: A grant to a record allocation within WAIT line frames accepts fast re-entry,
  and the channel enters Service. -/
  | fastReentryAccept (c : ChanId)
  /-- R168, FAST_REENTRY_FAIL: Fast re-entry fails on WAIT expiry, a foreign head end, withdrawal or HOLD
  passing, and the channel falls back to INITIAL. -/
  | fastReentryFail (c : ChanId)
  /-- R163, IDENTITY_PERSIST: Firmware copies an identity record whose GEN changed to the persist port, at
  most once per second. -/
  | identityPersist (c : ChanId) (ok : Bool)
  /-- R169, SERIAL_SET: The mailbox command sets the serial number and registration ID, and REC_STATE becomes
  SERIAL. -/
  | serialSet (m : CmdHead) (serial : DWord) (regId : BitVec 288)
  /-- R169, IDENTITY_READ: The mailbox command copies the identity record to host memory. -/
  | identityRead (m : CmdHead) (addr : DWord)
  /-- R169, IDENTITY_CLEAR: The mailbox command zeroes the identity record and clears the channel's key sets.
  -/
  | identityClear (m : CmdHead)
  /-- R169, PORT_REGISTER: The mailbox command registers and binds an envelope port and sets its PORT_MAP bit.
  -/
  | portRegister (m : CmdHead) (port : BitVec 16) (ctx : BitVec 14)
  /-- R169, PORT_RELEASE: The mailbox command unbinds an envelope port and clears its PORT_MAP bit. -/
  | portRelease (m : CmdHead) (port : BitVec 16)
  /-- R164, FAST_POLICY: The mailbox command sets or clears FAST_CAPABLE. -/
  | fastPolicy (m : CmdHead) (v : Bool)
  /-- R198, BURST_DUE: Burst content falls due at s_if − H, and frames are selected and built into staging. -/
  | burstDue (c : ChanId) (rets : List CipherRet) (ecc : EccFault)
  /-- R597, BURST_START: The SOB word of a burst is presented to the framer at s_if, and the burst's words
  follow. -/
  | burstStart (c : ChanId) (wait : Bool) (fault : StageFault)
  /-- R205, TX_EN_ON: The builder raises TX_EN at w_on of a served burst. -/
  | txEnOn (c : ChanId) (rogue : Bool)
  /-- R205, TX_EN_OFF: The builder lowers TX_EN at w_off of a served burst. -/
  | txEnOff (c : ReadBy)
  /-- R202, FRAME_SENT: A frame's last byte leaves the framer interface and its transmit completion and
  timestamp fall due. -/
  | frameSent (c : ChanId)
  /-- R232, PARSE_CFG_WRITE: A write to CH_PARSE_CFG, CH_PARSE_TPID or CH_PARSE_UDP takes effect only in
  Disabled. -/
  | parseCfgWrite (c : ChanId) (n : Fin 3) (v : Word)
  /-- R231, KEY_PROFILE_WRITE: A write to a slot's key selection or extractor is accepted only while the slot
  is FREE or BUILD, and raises CONFIG otherwise. -/
  | keyProfileWrite (c : ChanId) (off : BitVec 16) (v : Word)
  /-- R259, TREE_SEL_WRITE: A write to a slot's tree selection or root is accepted only while the slot is FREE
  or BUILD, and raises CONFIG otherwise. -/
  | treeSelWrite (c : ChanId) (off : BitVec 16) (v : Word)
  /-- R247, FRAG_AGE_OUT: The fragment sweep invalidates an entry whose AGE or LAST_AGE has passed. -/
  | fragAgeOut (c : ChanId) (n : Fin 1024)
  /-- R248, FRAG_TABLE_DISABLE: Clearing CH_FRAG_CFG.EN stops lookups and invalidates every fragment entry. -/
  | fragTableDisable (c : ChanId)
  /-- R283, TKEY_COMMIT: A write of CH_CLS_CFG.TKEY_COMMIT copies the Toeplitz shadow key to the active key in
  one cycle. -/
  | tkeyCommit (c : ChanId)
  /-- R292, BUILD: The sheaf command moves a FREE slot to BUILD. -/
  | build (c : ChanId) (g : Fin 4)
  /-- R292, ABANDON: The sheaf command returns a BUILD slot to FREE. -/
  | abandon (c : ChanId) (g : Fin 4)
  /-- R292, DISARM: The sheaf command clears an arm, and an ARMED slot returns to BUILD. -/
  | disarm (c : ChanId) (g : Fin 4)
  /-- R292, COMMIT: The sheaf command makes a slot CURRENT, after the root check when the slot is in BUILD. -/
  | commit (c : ChanId) (g : Fin 4)
  /-- R292, RELEASE: The sheaf command returns a DRAINED slot to FREE. -/
  | release (c : ChanId) (g : Fin 4)
  /-- R294, ROOT_CHECK_DONE: The root check ends: the slot is committed or armed, or it stays in BUILD with
  CHECK_FAIL. -/
  | rootCheckDone (c : ReadBy)
  /-- R301, ARMED_COMMIT: STU time reaches an armed T and the armed slot becomes CURRENT. -/
  | armedCommit (c : ChanId)
  /-- R305, SLOT_DRAINED: A DRAINING slot's in-flight, pin and fragment counts all reach zero, so it becomes
  DRAINED and raises SHEAF. -/
  | slotDrained (c : ChanId) (g : Fin 4)
  /-- R329, GLEAN_GO: A write of CH_GR_GLEAN.GO empties the ring and starts the glean scan. -/
  | gleanGo (c : ChanId)
  /-- R328, TO_BITMAP: A write of CH_GR_GLEAN.TO_BITMAP puts the free store into BITMAP mode and stops any
  glean. -/
  | toBitmap (c : ChanId)
  /-- R332, GLEAN_DONE: The scan passes the last cell, the store enters RING mode and GLEAN_DONE is raised. -/
  | gleanDone (c : ReadBy)
  /-- R531, BANK_MIGRATE: The mailbox command starts the migration of a bank to a free fallow bank. -/
  | bankMigrate (m : CmdHead) (store : Fin 4) (bank : Fin 32)
  /-- R336, MIGRATION_SWITCH: The migration copier finishes, the fallow bank serves the bank's indices and
  BANK_RETIRED is raised. -/
  | migrationSwitch (c : CopyReads) (gran : Bool)
  /-- R525, WEAR_SAMPLE: Once per second firmware samples bank error counts, raises ECC_WEAR for worn banks
  and may start migrations. -/
  | wearSample
  /-- R380, DB_BASE_WRITE: A write to CH_DB_BASE is accepted only while every queue and completion ring is
  idle and disabled. -/
  | dbBaseWrite (c : ChanId) (hi : Bool) (v : Word)
  /-- R375, QUEUE_ENABLE: A write of EN = 1 to an idle queue sets C and P to START, clears IDLE and watches
  its doorbell line. -/
  | queueEnable (c : ChanId) (tx : Bool) (q : Fin 256) (v : Word)
  /-- R377, QUEUE_TAKEDOWN: A write clearing EN on an enabled queue stops it and flushes its unstarted work.
  -/
  | queueTakedown (c : ReadBy) (tx : Bool) (q : Fin 256) (v : Word)
  /-- R378, QUEUE_IDLE: Every completion owed by a take-down has been written, and the queue's IDLE sets. -/
  | queueIdle (c : ChanId) (tx : Bool) (q : Fin 256)
  /-- R377, TAKEDOWN_GRANT_TIMEOUT: A partly sent frame of a taken-down queue that gets no grant within 10 ms
  completes as NOT_SENT. -/
  | takedownGrantTimeout (c : ChanId) (q : Fin 256)
  /-- R351, DOORBELL_POLL: The poll interval expires and each watched line is read. -/
  | doorbellPoll (c : ChanId)
  /-- R351, HP_INVALIDATE: An invalidation of a watched line under WATCH = 1 triggers a read of that line. -/
  | hpInvalidate (line : BitVec 58)
  /-- R351, DB_KICK: A write to CH_DB_KICK triggers an immediate read of the named watched line. -/
  | dbKick (c : ChanId) (k : Fin 64)
  /-- R353, DOORBELL_LINE_READ: A doorbell line read returns and its tail and consumer index entries are
  checked and applied. -/
  | doorbellLineRead (c : ChanId) (k : Fin 36) (ts : List Word)
  /-- R363, DESCRIPTOR_FETCH: A descriptor read returns, its marks are checked, and committed slots are taken
  and checked for malformation. -/
  | descriptorFetch (c : ChanId) (tx : Bool) (q : Fin 256) (idx : Word) (slots : List (List Byte))
  /-- R364, OWN_REREAD: A slot below P whose mark did not match is read again every 256 core cycles. -/
  | ownReread (c : ChanId) (tx : Bool) (q : Fin 256) (slot : List Byte)
  /-- R355, HOST_READ_RETRY: A failed doorbell or descriptor read is retried after 1 µs. A fourth failure
  halts the channel with HOST_FATAL. -/
  | hostReadRetry (c : ChanId) (w : ReadWhat) (code : Byte)
  /-- R366, TX_FRAME_START: A transmit chain that is committed, checked, reserved and at its queue's turn
  starts storage from host buffers. -/
  | txFrameStart (c : ChanId)
  /-- R365, TX_FRAME_STORED: A transmit frame's last byte is stored, its chain is consumed, and it is
  classified and queued. -/
  | txFrameStored (c : ChanId) (q : Fin 256) (bytes : List Byte) (ecc : EccFault)
  /-- R367, TX_BUFFER_READ_ERROR: A non-fatal failed transmit buffer read ends storage, and the frame
  completes HOST_READ_ERR. -/
  | txBufferReadError (c : ChanId) (q : Fin 256) (stored : List Byte) (code : Byte)
  /-- R371, RX_WRITE_OUT: A head receive frame whose buffer need is met is written out, followed by its
  completion. -/
  | rxWriteOut (c : ChanId) (q : Fin 256) (ecc : EccFault)
  /-- R372, RX_HOLD_EXPIRY: The head-frame hold expires with its buffer need unmet, and the frame is dropped
  as NO_HOST_BUFFER. -/
  | rxHoldExpiry (c : ReadBy) (q : Fin 256)
  /-- R392, CRING_ENABLE: A write of EN = 1 to an idle completion ring sets P and C to START and watches its
  line. -/
  | cringEnable (c : ChanId) (r : Fin 64) (v : Word)
  /-- R392, CRING_DISABLE: A write clearing EN on a completion ring whose queues are all idle sets IDLE. -/
  | cringDisable (c : ChanId) (r : Fin 64) (v : Word)
  /-- R400, CRING_ARM: A write to CH_CRING_ARM applies a consumer index and either sends the vector or sets
  ARMED. -/
  | cringArm (c : ChanId) (r : Fin 64) (t : Word)
  /-- R394, HELD_COMPLETION_WRITE: A held completion leaves the hold queue once its ring has a free slot. -/
  | heldCompletionWrite (c : ReadBy) (r : Fin 64)
  /-- R395, CPL_STALL_RELEASE: A stalled work item starts once ring or hold room appears, and STALLED clears.
  -/
  | cplStallRelease (c : ChanId) (r : Fin 64) (ecc : EccFault)
  /-- R405, EVENT_RECORD_HEAD: An event record reaches the head of its stream and is written, deferred, or
  discarded. -/
  | eventRecordHead (stream : Option ChanId)
  /-- R405, EVENT_DEFERRED_WRITE: A deferred event record is written as soon as its ring has a free slot. -/
  | eventDeferredWrite (n : Fin 16)
  /-- R406, EVR_DISABLE: Clearing an event ring's EN discards every record deferred on it. -/
  | evrDisable (n : Fin 16) (v : Word)
  /-- R405, EVR_CONS_WRITE: A write to HL_EVR_CONS is accepted as a consumer index or counted as bad. -/
  | evrConsWrite (n : Fin 16) (t : Word)
  /-- R407, EVR_HOLDOFF_EXPIRY: An event ring's moderation timer expires, and the vector is sent if a record
  was noted. -/
  | evrHoldoffExpiry (n : Fin 16)
  /-- R408, VEC_UNMASK: Clearing a vector's mask bit while it is pending sends one message and clears the
  pending bit. -/
  | vecUnmask (hi : Bool) (v : Word)
  /-- R424, STU_ADJ: A write of HL_STU_ADJ_CTL.ADJ adds HL_STU_ADJ_NS to calendar time. -/
  | stuAdj
  /-- R424, STU_SET: A write of HL_STU_ADJ_CTL.SET loads calendar time from the SET registers. -/
  | stuSet
  /-- R425, STU_SNAPSHOT: A write of HL_STU_SNAP_CTL.GO copies the tick count and calendar time into the
  snapshot registers. -/
  | stuSnapshot
  /-- R419, STU_SOURCE_CHANGE: A write changing HL_STU_CTL.SRC or CHAN discards pending samples, resets the
  lock count and raises TIME_SOURCE. -/
  | stuSourceChange (v : Word)
  /-- R420, PPS_IN_EDGE: A PPS input rising edge is captured, accepted or rejected, and an accepted edge feeds
  the STU servo. -/
  | ppsInEdge
  /-- R420, PPS_GAP_TIMEOUT: 1.1 s pass with no PPS edge, and HL_CNT_STU_PPS_BAD increments. -/
  | ppsGapTimeout
  /-- R417, SOURCE_INVALID: A time source's last sample becomes too old, so the source becomes invalid and the
  servo moves to FREE or HOLDOVER. -/
  | sourceInvalid (src : Option ChanId)
  /-- R422, PPS_OUT_RISE: Calendar time reaches a second plus the offset and the PPS output rises. -/
  | ppsOutRise
  /-- R422, PPS_OUT_FALL: WIDTH_MS after the rise, the PPS output falls. -/
  | ppsOutFall
  /-- R617, TOD_OUT_SEND: 100 ms after a PPS_OUT edge, the ToD message for the next second is sent. -/
  | todOutSend
  /-- R617, TOD_IN_MESSAGE: A ToD input message is received and checked, and firmware writes the PPS seconds
  or discards it. -/
  | todInMessage (m : List Byte) (inTime : Bool)
  /-- R430, TU_MSG_ARM: Firmware arms an offset measurement for a named SFC. -/
  | tuMsgArm (c : ChanId) (sfc : BitVec 51) (sec : BitVec 48) (ns : BitVec 30) (teqd : Word)
  /-- R435, HOLDOVER_EXPIRY: HOLD_MAX minutes in HOLDOVER pass and the servo moves to FREE. -/
  | holdoverExpiry (unit : Option ChanId)
  /-- R438, INTEG_WRITE: A write to an integral register is accepted only in FREE, and sets I and y. -/
  | integWrite (unit : Option ChanId) (v : Word)
  /-- R442, TSQ_POP: A write of CH_TSQ_POP.GO removes the head timestamp entry. -/
  | tsqPop (c : ChanId)
  /-- R447, DRILL_WRITE: The Drill command WRITE copies the staging registers into an entry, or is refused. -/
  | drillWrite (d : Option ChanId) (e : Fin 256)
  /-- R447, DRILL_READ: The Drill command READ copies an entry into the staging registers. -/
  | drillRead (d : Option ChanId) (e : Fin 256)
  /-- R447, DRILL_DISARM: The Drill command DISARM clears an entry's EN and sets it IDLE. -/
  | drillDisarm (d : Option ChanId) (e : Fin 256)
  /-- R449, DRILL_FIRE: An armed entry reaches its firing point, performs or misses its action, and advances
  by its period. -/
  | drillFire (d : Option ChanId) (e : Fin 256)
  /-- R452, PULSE_END: ARG ns after its leading edge, a trigger pulse's trailing edge follows. -/
  | pulseEnd (n : Fin 16)
  /-- R455, CAPTURE_ARM: A CAPTURE_ARM action or a host write of ARM arms a capture input with a window. -/
  | captureArm (n : Fin 8) (v : Word)
  /-- R455, CAPTURE_EDGE: A selected edge on an armed capture input is timestamped and raises CAPTURE. -/
  | captureEdge (n : Fin 8) (edge : Edge)
  /-- R455, CAPTURE_TIMEOUT: A capture window ends with no edge, ARM clears and TIMEOUT sets. -/
  | captureTimeout (n : Fin 8)
  /-- R468, IDLE_TIMER_EXPIRY: The idle timer expires, and automatic Stop entry is attempted when its
  conditions hold. -/
  | idleTimerExpiry (c : ChanId)
  /-- R471, STOP_REQUEST: A write of CH_PWR_CTL.STOP or a Drill STOP action requests a forced Stop entry. -/
  | stopRequest (c : ChanId) (v : Word)
  /-- R472, STOP_ENTRY: The entry sequence stops the sub-blocks in order, stores seals, latches the pads and
  stops clocks. -/
  | stopEntry (c : ChanId)
  /-- R474, STOP_ABORT_DONE: The stopped sub-blocks have restarted after an abort, and PHASE returns to RUN.
  -/
  | stopAbortDone (c : ChanId)
  /-- R472, STOP_ENTERED: The regulator reaches low-power mode, the mode becomes Stop and STOP_ENTERED is
  raised. -/
  | stopEntered (c : ChanId)
  /-- R475, WAKE_REQUEST: A wake source, whether host, Drill, transmit doorbell, firmware, FWI, sync loss,
  port or pattern, reaches the sequencer and starts the wake. -/
  | wakeRequest (c : ChanId) (w : WakeBy)
  /-- R475, STOP_TIMER_EXPIRY: MAX_MS ms in Stop pass and wake source TIMER fires. -/
  | stopTimerExpiry (c : ChanId)
  /-- R479, WAKE_COMPLETE: The wake sequence ends, the channel returns to Service and WAKE is raised. -/
  | wakeComplete (c : ChanId) (flips : List SealFlip) (errs : SealErrs)
  /-- R491, BROWN_OUT: The retention regulator's over-current persists for 2 µs, and the channel halts with
  cause 0x03. -/
  | brownOut (c : ChanId)
  /-- R485, PAD_RELEASE: A write of CH_PAD_RELEASE.GO in Acquire or Service releases the pad hold cells. -/
  | padRelease (c : ChanId)
  /-- R494, DVFS_FREQ_REQUEST: A frequency-change request to HL_DVFS_REQ is checked and started or rejected.
  -/
  | dvfsFreqRequest (mg : Bool) (n : Fin 4)
  /-- R494, DVFS_VOLT_REQUEST: A voltage-change request to HL_DVFS_REQ is checked and started or rejected. -/
  | dvfsVoltRequest (mg : Bool) (n : Fin 4)
  /-- R495, DVFS_FREQ_DONE: FACK matches FSEL, the frequency change completes and its tokens are settled. -/
  | dvfsFreqDone
  /-- R495, DVFS_VOLT_DONE: The voltage settles after 20 µs per step and BUSY clears. -/
  | dvfsVoltDone
  /-- R497, BUDGET_WRITE: A write of HL_PWR_BUDGET.TOKENS is accepted, or refused when it is below the sum of
  floors. -/
  | budgetWrite (v : Word)
  /-- R496, BUDGET_ARBITRATE: Every 1 µs the arbiter grants floors and shares the remaining tokens, setting
  OVER if needed. -/
  | budgetArbitrate
  /-- R503, MOVER_GO: A write of MV_CTL.GO submits the shadow transfer after its checks, or is refused. -/
  | moverGo (n : Fin 8) (v : Word)
  /-- R504, MOVER_START: An idle set with a pending shadow copies it to the active set and starts the
  transfer. -/
  | moverStart (n : Fin 8) (good : Nat) (host : List Byte) (ecc : EccFault)
  /-- R517, MOVER_RETRY: A chunk that failed with a bus error is retried after 1 µs, or the set halts. -/
  | moverRetry (n : Fin 8) (code : Byte) (dst : Bool) (good : Nat) (host : List Byte) (ecc : EccFault)
  /-- R515, MOVER_DONE: A transfer reaches the end of its count: writes are posted, the barrier and result
  record complete, and MOVER_DONE is raised. -/
  | moverDone (n : Fin 8)
  /-- R520, MOVER_CLEAR: The command CLEAR returns a halted set to IDLE. -/
  | moverClear (n : Fin 8)
  /-- R520, MOVER_ABORT: The command ABORT halts a running set and discards a pending shadow. -/
  | moverAbort (n : Fin 8)
  /-- R645, WINDOW_SELECT_WRITE: A write to an indirect window selector changes the channel and block the
  window addresses, and discards its latch. -/
  | windowSelectWrite (tree : Bool) (v : Word)
  /-- R644, WINDOW_ACCESS: An access through the tree or context aperture is served, or discarded with a
  recorded reason. -/
  | windowAccess (tree : Bool) (acc : WinAcc) (ecc : EccFault)
  /-- R533, HANDOVER: The mailbox command starts a handover, and PREPARE copies configuration and tree memory
  to the target. -/
  | handover (m : CmdHead) (src tgt : Fin 32) (buffer : DWord) (hostCfg : Bool)
  /-- R538, HANDOVER_FREEZE: At the first start marker after PREPARE, the source is frozen, its stream drained
  and its pads latched. -/
  | handoverFreeze (retired : Bool)
  /-- R541, HANDOVER_TRANSFER: The dynamic state is exported to the buffer and imported into the target. -/
  | handoverTransfer (halts : Nat) (crcOk : Bool)
  /-- R542, HANDOVER_SWITCH: The lane claim passes from source to target, and the identity, Drill targets and
  event routing move. -/
  | handoverSwitch
  /-- R545, HANDOVER_RESUME_DONE: The target finishes RESUME in Service, Acquire or Disabled, and the handover
  ends. -/
  | handoverResumeDone
  /-- R547, HANDOVER_ABORT: The mailbox command aborts a handover before SWITCH. -/
  | handoverAbort (m : CmdHead)
  /-- R539, CONFIG_EXPORT: The mailbox command writes a channel's header and configuration register image to a
  host buffer. -/
  | configExport (m : CmdHead) (buffer : DWord)
  /-- R550, FALLOW_DESIGNATE: The mailbox command designates a reset, empty Disabled channel as fallow. -/
  | fallowDesignate (m : CmdHead)
  /-- R551, FALLOW_TEST: The mailbox command starts a march test of every SRAM of the fallow channel. -/
  | fallowTest (m : CmdHead)
  /-- R551, FALLOW_TEST_DONE: The fallow test ends, passing or failing, and FALLOW is raised. -/
  | fallowTestDone (bad : List (Fin 48)) (staging : Bool)
  /-- R555, MB_CMD_TAIL: A write of HL_MB_CMD_TAIL announces new command records, or is ignored as bad. -/
  | mbCmdTail (t : Word)
  /-- R658, MB_RING_CTL_WRITE: A write to a mailbox ring control register enables it with indices at START, or
  disables it. -/
  | mbRingCtlWrite (r : Fin 3) (v : Word)
  /-- R555, MB_COMMAND_REREAD: A command record whose mark does not match is read again every 10 µs. -/
  | mbCommandReread (code : Byte)
  /-- R560, MGMT_SEND: The mailbox command stores a host frame as client MGMT into a transmit queue. -/
  | mgmtSend (m : CmdHead) (len : BitVec 14) (q : Fin 256) (data : List Byte)
  /-- R567, FW_STAGE: The mailbox command checks the header, signature and SVN of the image in FW_IMAGE space
  and stages it. -/
  | fwStage (m : CmdHead)
  /-- R568, FW_WRITE: The mailbox command writes the staged image to a persist slot. -/
  | fwWrite (m : CmdHead) (b : Bool)
  /-- R568, FW_WRITE_DONE: The persist write of an image ends with WRITTEN or WRITE_FAIL. -/
  | fwWriteDone (ok : Bool)
  /-- R569, FW_ACTIVATE: The mailbox command restarts the core into a slot in TRIAL. -/
  | fwActivate (m : CmdHead) (b : Bool)
  /-- R569, FW_READY: The new image passes its start checks and raises READY. -/
  | fwReady
  /-- R569, FW_REVERT: READY does not come within 1 s, and the boot ROM restarts into the accepted slot. -/
  | fwRevert
  /-- R569, FW_ACCEPT: The mailbox command makes the running trial slot the accepted slot and raises the
  counter. -/
  | fwAccept (m : CmdHead) (ok : Bool)
  /-- R557, FW_INFO: The mailbox command returns the slots, versions and counter in its response. -/
  | fwInfo (m : CmdHead)
  /-- R559, COPY_DRAIN: Firmware drains a core copy entry or a management frame into the copy area, or
  discards it. -/
  | copyDrain
  /-- R562, KEY_ITEM: Firmware loads or clears a key slot through the cipher port and posts a KEY notice. -/
  | keyItem (c : ChanId) (set : Byte) (two : Bool) (key : Option (Bool × BitVec 256))
  /-- R565, SENSOR_SAMPLE: Every 100 µs the sensors are read, and alarms set or clear and raise their sources.
  -/
  | sensorSample (temp : Vector (BitVec 16) 21) (volt age : Vector (BitVec 16) 38)
  /-- R573, LOG_RECORD: Firmware writes a log record, mirrors it and raises LOG at the threshold. -/
  | logRecord (sev : Fin 4)
  /-- R575, LOG_CONS_WRITE: A write of HL_LOG_CONS records the host's read position and re-enables the LOG
  threshold event. -/
  | logConsWrite (t : Word)
  /-- R576, PERSIST_RETRY: A failed persist write is retried every 100 ms. -/
  | persistRetry (ok : Bool)
  /-- R578, PM_SECOND: Each calendar second is classified per channel, and availability and bins are updated.
  -/
  | pmSecond (c : ChanId)
  /-- R580, PM_PREV_COPY: The core copies a closed bin to HL_PM_PREV and posts a PM notice. -/
  | pmPrevCopy (c : ChanId) (day : Bool)
  /-- R587, HOST_READ_TIMEOUT: A host read without data within RD_TIMEOUT_US completes with code 0x04. -/
  | hostReadTimeout (r : HostRead)
  /-- R655, HOST_WRITE_TIMEOUT: A data write without a response within RD_TIMEOUT_US completes with code 0x04
  and is reissued. -/
  | hostWriteTimeout (st : StreamId)
  /-- R589, HOST_WRITE_RESPONSE: A data write response arrives, and a non-fatal code retries the write after 1
  µs. -/
  | hostWriteResponse (st : StreamId) (code : Byte)
  /-- R611, FP_IN_FRAME: A frame-port input frame is reserved, stored, classified and queued, or dropped. -/
  | fpInFrame (c : ChanId) (raw : BitVec 256) (bytes : List Byte) (abort : Bool) (ecc : EccFault)
  /-- R608, FP_OUT_FRAME: The frame port sends a ready lane's head frame from SOP to EOP. -/
  | fpOutFrame (c : ChanId) (xoff : BitVec 16) (ecc : EccFault)
  /-- R613, FP_EN_WRITE: A write of CH_PORT_CFG.FP_EN enables or disables the frame port at the next frame
  boundary. -/
  | fpEnWrite (c : ReadBy) (v : Word)
  /-- R600, SD_LOSS: A fall of the SD input while the channel is not Disabled increments CH_CNT_PMD_SD_LOSS.
  -/
  | sdLoss (c : ChanId) (level : Bool)
  /-- R55, HEARTBEAT: Every 1 µs of STU time while the channel's core sequencer runs, CH_MODE.HEARTBEAT
  increments and is also sent to the always-on island. -/
  | heartbeat (c : ChanId)
  /-- R534, HANDOVER_PREPARE_DONE: The PREPARE phase's copies of configuration and tree memory to the target
  finish, HO_PHASE moves on and source 411 is raised with CONTINUE. -/
  | handoverPrepareDone (halts : Nat) (version : BitVec 16) (cfg : List (BitVec 16 × Word))
  /-- R658, MB_CONS_WRITE: A host write to HL_MB_RSP_CONS or HL_MB_COPY_CONS is accepted as R390 accepts a
  consumer index, freeing mailbox or copy-area slots so that waiting responses, notices and copies can be
  written. -/
  | mbConsWrite (copy : Bool) (t : Word)
  /-- R405, EVR_ENABLE: A write of EN = 1 to an idle event ring is accepted as R392 states without the
  doorbell condition, setting its indices to START and clearing IDLE. -/
  | evrEnable (n : Fin 16) (v : Word)
  /-- R596, DS_WORD_AFTER_END: A valid framer word arriving after FR_DS_END and before the next FR_DS_START is
  discarded and counted in CH_CNT_DS_LF_TRUNC. -/
  | dsWordAfterEnd (w : FramerWord)
  /-- R576, LOG_PERSIST: Firmware writes pending log records to the persist log, within 1 s generally and
  within 10 ms for FW_ACTIVATE, FW_RESTART, HALT and BANK_RETIRED records, including the pinned BANK_RETIRED
  area. -/
  | logPersist (ok : Bool)
  /-- R624, TEST_EN_CHANGE: A change of the TEST_EN input puts every functional output at its device reset
  state while it is 1, and releases them when it returns to 0. -/
  | testEnChange (v : Bool)
  deriving DecidableEq, Repr

end Sys2Proof
end

