-- ==== Sys2Proof/Decode.lean ====
section
/-!
DEFINITION. The command that a word of the opcode table's bits spells. The table gives no row any bits: a command
is an event at the block's pins and registers, not a word, so no word spells one.
-/

namespace Sys2Proof

/-- The command that a word spells: none. (DESIGN CHOICE, log entry 2) -/
def decodeTableWord (_nbits _w : Nat) : Option Instr := none

end Sys2Proof
end

