-- ==== Sys2Proof/Config.lean ====
section
/-!
DEFINITION. The free values: what the manual leaves open, as constants without a body. Nothing can be
proved of their values.
-/

namespace Sys2Proof.Config

/-- Padding after an envelope payload of a given length in the G.9804 modes (R101: that of G.9804.2).
(DESIGN CHOICE, log entry 4) -/
opaque pad9804 : Nat → Nat

/-- The noise that seeds the random delay generators at a device reset, by the count of device resets (R150).
(DESIGN CHOICE, log entry 4) -/
opaque noise : Nat → Nat

/-- The draw of a generator seeded with noise and a channel number, at a given draw (R150).
(DESIGN CHOICE, log entry 4) -/
opaque draw : Nat → Nat → Nat → Nat

/-- MIC of a management message of EXT_100 that a channel sends, over its first 40 bytes, at a tick count (R174: that of
G.9804.2 under the session's keys). (DESIGN CHOICE, log entry 4) -/
opaque mic : Nat → List Byte → BitVec 64 → BitVec 64

/-- The upstream frame counter of a standards mode, for a burst whose map came with the line frame of a given SFC
(R189, R602: the standard's). (DESIGN CHOICE, log entry 4) -/
opaque usFrame : Nat → Nat → BitVec 51

/-- The word offset of an upstream payload in a standards mode, by the START_TIME of its burst and the payload's byte
offset from the burst header (R189, R602: the standard's). (DESIGN CHOICE, log entry 4) -/
opaque usOffset : Nat → Nat → Nat → BitVec 32

/-- Whether the signature of the image in FW_IMAGE space verifies (R566, R567). (DESIGN CHOICE, log entry 4) -/
opaque signatureOk : Sparse Byte → Bool

/-- The VALID bit of a ToD message sent, for a given HL_STU_STATUS (R616 gives no condition for it).
(DESIGN CHOICE, log entry 4) -/
opaque todValid : BitVec 32 → Bool

/-- What an upstream item shows that the environment gives no byte for, by position. (DESIGN CHOICE, log entry 4) -/
opaque freeByte : Nat → Byte

/-- Where in the staging buffer the n-th byte staged is placed (R199 fixes no address).
(DESIGN CHOICE, log entry 4) -/
opaque stageAddr : Nat → Nat

/-- The burst header, report and trailer of the standards modes, by kind (0, 1, 2), receive mode and the
value that the item carries (R187: those of the standard in use). (DESIGN CHOICE, log entry 4) -/
opaque stdItem : Nat → Nat → Nat → BitVec 32

/-- The idle message of a receive mode for a terminal ID (R158: the standard's, and its integrity code).
(DESIGN CHOICE, log entry 4) -/
opaque idleMessage : Nat → Nat → List Byte

/-- The serial-number message of a receive mode for a serial number, which firmware puts into the response
template (R149, R176: the standard's). (DESIGN CHOICE, log entry 4) -/
opaque snTemplate : Nat → BitVec 64 → List Byte

/-- The HEC of an envelope header over its upper 51 bits (R99: that of G.9807.1). (DESIGN CHOICE, log entry 4) -/
opaque hec : BitVec 51 → BitVec 13

/-- The LF bit of an idle envelope, which R191 leaves open. (DESIGN CHOICE, log entry 4) -/
opaque idleLf : Nat → Bool

/-- Whether an allocation ID is a serial-number allocation ID of a standards mode (R149).
(DESIGN CHOICE, log entry 4) -/
opaque snAlloc : Nat → Nat → Bool

/-- An allocation structure of the G.9804 modes, with its fields brought to the places of R179 (R179: the
positions of G.9804.2). (DESIGN CHOICE, log entry 4) -/
opaque alloc9804 : BitVec 64 → BitVec 64

/-- Start of payload of a G.9804 line frame, by the 8 bytes that open its header (R95).
(DESIGN CHOICE, log entry 4) -/
opaque payload9804 : BitVec 64 → Nat

/-- Map length and message count that the header of a G.9804 line frame names (R95). (DESIGN CHOICE, log entry 4) -/
opaque counts9804 : BitVec 64 → Nat × Nat

/-- What a byte of CONTEXT space reads as whose layout the manual calls opaque or does not give, by address and
tick count (R268, R506). (DESIGN CHOICE, log entry 4) -/
opaque opaqueByte : Nat → BitVec 64 → Byte

/-- The side, destination or source, whose address MV_FAULT holds for a set that is aborted: no chunk has failed
(R519, R520). (DESIGN CHOICE, log entry 4) -/
opaque abortSide : BitVec 64 → Bool

/-- How many bytes of a frame have left the frame port when a cell error ends it, at a tick count (R609).
(DESIGN CHOICE, log entries 4 and 119) -/
opaque fpEnd : BitVec 64 → Nat

/-- The lane whose head frame has begun on the frame port output of a channel and has not ended, at a tick count
(R608, R609: the pace is the environment's). (DESIGN CHOICE, log entries 4 and 119) -/
opaque fpoBegun : Nat → BitVec 64 → Option Nat

/-- How many words of a burst in progress the framer of a channel has taken, at a tick count (R597: the framer paces the
burst). (DESIGN CHOICE, log entries 4 and 140) -/
opaque usTaken : Nat → BitVec 64 → Nat

/-- Whether the frame port shows ready between frames, when no rule holds it low, by channel and tick count
(R611). (DESIGN CHOICE, log entry 4) -/
opaque fpiReady : Nat → BitVec 64 → Bool

/-- ROW of CH_GR_MIGRATE from the start of a migration on, by channel and tick count: the pace of the copier is its own
(R336). (DESIGN CHOICE, log entry 4) -/
opaque copyRow : Nat → BitVec 64 → BitVec 11

/-- ROW of CH_FB_MIGRATE from the start of a migration on, by channel and the copier's clock, which stands still in Stop
(R528, R529). (DESIGN CHOICE, log entries 4 and 141) -/
opaque fbCopyRow : Nat → BitVec 64 → BitVec 13

/-- Whether the copier found a cell allocated that was free for a part of the migration, by channel, cell and tick count
(R336: the pace of the copier is its own). (DESIGN CHOICE, log entries 4 and 141) -/
opaque cellCopied : Nat → Nat → BitVec 64 → Bool

/-- The part of a group's signature that comes from what State does not hold: the retention flops, an idle fallow bank, a
retired bank and the opaque part of context memory; by channel, group and the tick count at which the clock stopped
(R487, R488). (DESIGN CHOICE, log entries 4 and 134) -/
opaque hiddenSeal : Nat → Nat → BitVec 64 → BitVec 64

/-- Halt code, space and channel, in the bits of DETAIL of R519, of a halt of a mover set that the fallow manager uses, by
tick count. (DESIGN CHOICE, log entry 4) -/
opaque lentHalt : BitVec 64 → BitVec 17

/-- The register image of a channel with these registers (R539: its layout belongs to the firmware).
(DESIGN CHOICE, log entry 4) -/
opaque regImage : Sparse (BitVec 32) → List Byte

/-- The severity that firmware gives the BOOT record, by the count of device resets (R573).
(DESIGN CHOICE, log entry 4) -/
opaque bootSeverity : Nat → BitVec 2

/-- The reading of an ageing monitor that its reference records at first boot, by index and tick count (R564).
(DESIGN CHOICE, log entries 4 and 145) -/
opaque pathDelay : Nat → BitVec 64 → BitVec 32

/-- A field of the header of a CONFIG image whose value R539 gives for a FULL image only, by its offset.
(DESIGN CHOICE, log entry 4) -/
opaque headerField : Nat → BitVec 64

end Sys2Proof.Config
end

