-- ==== Sys2Proof/Machine/State.lean ====
section
/-!
DEFINITION. The state of the block, as plain data. Registers are held per window in a sparse file keyed by
offset (the register list is in RegMap); counters likewise; each SRAM store as a sparse byte table; and
what the spec gives the block beside its registers (queues, frames, streams, timers in progress) in typed
fields. INVENTORY.md lists every piece with its rule and reset value.
-/

namespace Sys2Proof.Machine

open Sys2Proof

/-- The block never stops with a fault: every condition of the manual is a state change (R62, R588). -/
inductive Fault where
  deriving DecidableEq, Repr

/-- Why a command is refused. -/
inductive Refusal where
  /-- The command of this row of the opcode table has no meaning yet. Raised by `exec` only; safe. -/
  | notModelled (mnemonic : String)
  deriving DecidableEq, Repr

/-! ### Ordered write streams and events -/

/-- What a host data write carries. -/
inductive WrKind where
  /-- Frame bytes into a receive buffer (R371). -/
  | rxData
  /-- A completion entry (R391). -/
  | completion
  /-- An event record (R405). -/
  | event
  /-- A mailbox response or notice (R555, R558). -/
  | mailbox
  /-- An entry of the copy area (R559). -/
  | copyArea
  /-- An identity record or a configuration image (R169, R539). -/
  | image
  /-- A mirrored log record (R573). -/
  | log
  deriving DecidableEq, Repr

/-- A pending event record (R403, R404). `ring` is the ring its routing entry named when it was
created. -/
structure EvRec where
  source : Nat
  ring   : Nat
  count  : Nat
  detail : Word
  tick   : DWord
  deriving DecidableEq, Repr

/-- One item of an ordered write stream (R398, R399, R586). (DESIGN CHOICE, log entry 9) -/
inductive StreamItem where
  | data (kind : WrKind) (addr : DWord) (bytes : List Byte)
  | vector (v : Nat)
  | watch (line : DWord)
  | unwatch (line : DWord)
  | event (r : EvRec)
  deriving DecidableEq, Repr

/-- An ordered write stream: its items, oldest first; how often the data write at its head has been
issued again (R589); whether that write has passed to the host port and waits for its response (R36, R473);
and whether the stream is closed to new writes (R75 step 2). -/
structure Stream where
  items  : List StreamItem
  tries  : Nat
  issued : Bool
  closed : Bool
  deriving DecidableEq, Repr

/-- Per event ring: its moderation timer runs, a record was noted while it ran (R407), and the ring was
found full and has not had room since (R405, source 466). -/
structure EvrAux where
  timer : Bool
  noted : Bool
  full  : Bool
  deriving DecidableEq, Repr

/-! ### Frames -/

/-- A frame stored in the Granary, as its holders know it. The chain of its cells is in the cell table
(R314, R315); `cell` is its head. -/
structure Frame where
  /-- Head cell. -/
  cell   : Nat
  /-- Stored length in bytes (R361, R371). -/
  len    : Nat
  /-- Upstream frame. -/
  up     : Bool
  /-- The stored bytes end in the frame's FCS (R371). -/
  hasFcs : Bool
  /-- First-byte timestamp, or ingress time, in the form of R413. -/
  ts     : DWord
  /-- Envelope port. -/
  port   : Nat
  /-- Arrival flow context. -/
  ctx    : Nat
  /-- Rule record that classified it. -/
  rule   : Nat
  /-- MARK of the rule record (R264). -/
  mark   : Nat
  /-- Frame type (R227). -/
  ftype  : Nat
  deriving DecidableEq, Repr

/-- One delivery to a receive queue (R371). -/
structure RxDeliv where
  frame  : Frame
  /-- Completion status (R385) and INFO (R386). -/
  status : Nat
  info   : Nat
  mirror : Bool
  trunc  : Bool
  copy   : Bool
  deriving DecidableEq, Repr

/-- One delivery to a frame-port lane (R607). -/
structure FpDeliv where
  frame  : Frame
  mirror : Bool
  trunc  : Bool
  /-- Its start has been delayed by XOFF, and counted (R608). -/
  waited : Bool
  deriving DecidableEq, Repr

/-- A destination (R272, R273). -/
inductive Dest where
  | rx (q : Nat)
  | tx (q : Nat)
  | fp (lane : Nat)
  | core
  deriving DecidableEq, Repr

/-- A delivery: where, and whether as mirror, truncated or as a processor copy. -/
structure Deliv where
  dest   : Dest
  mirror : Bool
  trunc  : Bool
  copy   : Bool
  deriving DecidableEq, Repr

/-- The result of a walk (R260, R261). -/
inductive WalkRes where
  | rule (r : Nat)
  | noTree
  | nodeErr (node dflt : Nat)
  | depth (node dflt : Nat)
  deriving DecidableEq, Repr

/-- Steps 8 and 9 of R139: the rule record, whether it can be applied (R265) and its MARK, the decision context with
its words 0x00 and 0x04 as read, the indirection index, the deliveries that result, an invalid indirection entry met, and
a mirror whose register is not valid. -/
structure ActStep where
  rule : Nat
  good : Bool
  mark : Nat
  ctx  : Nat
  c0   : Nat
  c4   : Nat
  ind  : Nat
  want : List Deliv
  indBad   : Bool
  noMirror : Bool
  deriving DecidableEq, Repr

/-- Steps 6 to 9 of R139: the key, the walk with the nodes read, and what its rule record asks for. -/
structure Decision where
  key   : List Byte
  walk  : WalkRes
  nodes : List Nat
  act   : Option ActStep
  deriving DecidableEq, Repr

/-- What a frame fixes when it enters (R269, R296): its generation slot, if one is current; its arrival
context and the context's bytes 0x00 to 0x07 as read then; and its envelope port. `seen` is its decision, when its
headers have ended before its last byte (R139, R285). -/
structure Entry where
  slot : Option Nat
  ctx  : Nat
  aw   : Nat
  port : Nat
  seen : Option Decision
  deriving DecidableEq, Repr

/-- One entry of a channel's core copy queue (R278), and a frame of a management context on its way to the
mailbox (R109, R559). `data` holds what the copy area shows of it. -/
structure CoreEntry where
  mgmt    : Bool
  chan    : Nat
  len     : Nat
  mark    : Nat
  rule    : Nat
  ctx     : Nat
  ts      : DWord
  cellErr : Bool
  data    : List Byte
  deriving DecidableEq, Repr

/-! ### Descriptor rings -/

/-- A slot held by the prefetcher: its index, its 32 bytes, whether its mark matched when it was read
(R363), whether it has been counted in CH_CNT_RING_OWN_WAIT (R364), and whether it must be read again
because P passed it unmatched (R363). -/
structure HeldSlot where
  idx     : Word
  bytes   : List Byte
  matched : Bool
  waited  : Bool
  deriving DecidableEq, Repr

/-- A consumed RX_BUF descriptor in a buffer list (R370). `used` marks a buffer of a frame that is
written out and whose completion is not yet written (R371). -/
structure RxBuf where
  idx    : Word
  len    : Nat
  addr   : DWord
  cookie : DWord
  used   : Bool
  deriving DecidableEq, Repr

/-- A receive queue's working state (R362, R370, R372, R377). -/
structure RxQ where
  /-- Prefetched slots. -/
  held    : List HeldSlot
  /-- Buffer list. -/
  bufs    : List RxBuf
  /-- Frames waiting, head first. -/
  frames  : List RxDeliv
  /-- The hold of the head frame runs (R372). -/
  holding : Bool
  /-- Buffers owed a FLUSHED completion that could not yet be reserved (R377, R395). -/
  flush   : List RxBuf
  deriving DecidableEq, Repr

/-- The working state of a queue that holds nothing. -/
def RxQ.empty : RxQ := ⟨[], [], [], false, []⟩

/-- A checked transmit descriptor (R358, R359). -/
structure TxDesc where
  first    : Bool
  last     : Bool
  tsReq    : Bool
  ltEn     : Bool
  nbuf     : Nat
  frameLen : Nat
  launch   : Word
  addr     : DWord
  bufLen   : Nat
  tsTag    : Nat
  cookie   : DWord
  deriving DecidableEq, Repr

/-- Where the descriptors of a transmit frame are, and what they ask for. A frame that entered on the
frame port or from the Headland core has none (R384). -/
structure TxSrc where
  queue  : Nat
  index  : Word
  nbuf   : Nat
  flen   : Nat
  tsReq  : Bool
  tsTag  : Nat
  cookie : DWord
  deriving DecidableEq, Repr

/-- A frame in a transmit queue (R189, R209, R366). -/
structure TxFrame where
  frame  : Frame
  src    : Option TxSrc
  /-- Queue on which the frame arrived. -/
  queue  : Nat
  /-- Launch time in channel short time (R209). -/
  launch : Option Word
  /-- Bytes already placed in envelopes. -/
  sent   : Nat
  /-- Timestamp of its first payload byte (R215), once it is selected. -/
  tsent  : Option DWord
  /-- Envelope port of its flow context, where that overrides the queue's (R189, R271). -/
  ovrPort : Option Nat
  /-- KEY_INDEX and KEY_SET of its decision context (R189, R271). -/
  key    : Nat
  keySet : Nat
  /-- A cipher or cell error: its FCS is complemented (R204, R605). -/
  bad    : Bool
  /-- An uncorrectable cell error (R204): status CELL_ERR. -/
  cellErr : Bool
  deriving DecidableEq, Repr

/-- A transmit queue's working state. -/
structure TxQ where
  held    : List HeldSlot
  /-- Taken and checked descriptors from index C on (R365, R366). -/
  descs   : List TxDesc
  /-- The frame of the first chain is being stored (R366); what it fixed at its entry. -/
  storing : Option Entry
  /-- The first chain has had its reservation deferred (R323, counted once for the frame). -/
  waited  : Bool
  /-- Frames in the queue, in order. -/
  frames  : List TxFrame
  deriving DecidableEq, Repr

/-- The working state of a queue that holds nothing. -/
def TxQ.empty : TxQ := ⟨[], [], none, false, []⟩

/-- An outstanding host read (R355): how often it has failed, and whether a further trigger arrived
meanwhile (R351). -/
structure ReadReq where
  what  : ReadWhat
  tries : Nat
  again : Bool
  deriving DecidableEq, Repr

/-- The work item that waits for a completion reservation (R395). -/
inductive StallItem where
  | rx (queue : Nat)
  | tx (queue : Nat)
  | flush (queue : Nat)
  deriving DecidableEq, Repr

/-! ### Completions -/

/-- A completion that has fallen due (R383, R394). -/
structure CplEntry where
  ring    : Nat
  status  : Nat
  tx      : Bool
  queue   : Nat
  nbuf    : Nat
  mirror  : Bool
  trunc   : Bool
  copy    : Bool
  ftype   : Nat
  info    : Nat
  len     : Nat
  index   : Word
  cookie  : DWord
  /-- Time in the form of R413. -/
  time    : DWord
  tsValid : Bool
  deriving DecidableEq, Repr

/-- The descriptor rings and the completion writer of a channel. -/
structure Rings where
  rxq     : Sparse RxQ
  txq     : Sparse TxQ
  reads   : List ReadReq
  /-- Host address of the first slot of the last read of descriptors (R342, R362). -/
  slotAt  : Option DWord
  /-- Next transmit queue in turn (R366). -/
  turn    : Nat
  /-- Doorbell lines read while the channel is in Stop, to be delivered at wake (R354). -/
  stopLines : Sparse (List Word)
  /-- Hold queue (R394), oldest first. -/
  hold    : List CplEntry
  /-- The item stalled on each completion ring (R395). -/
  stalled : Sparse (Option StallItem)
  deriving DecidableEq, Repr

/-! ### Granary -/

/-- Granary state beside the cell table and the registers. `ring` is the free ring with its cache and
release buffer, oldest first (R327); `loss` holds the banks marked for loss (R338); `last` is the tick count at which
the last unreserved cell was granted, and to which client (R322). `copied` and `moved` are of the migration that runs
(R336): what has been written to buffer memory since its start, over zeros, and the cells whose STATE has been
written since. -/
structure Granary where
  ring : List Nat
  loss : List Nat
  last : Option (DWord × Nat)
  copied : Sparse Byte
  moved  : List Nat
  deriving DecidableEq, Repr

/-! ### Time -/

/-- The counts of the system time unit (R410): the tick count in ns with the lower 48 bits of its
fraction, and calendar time as seconds, nanoseconds and a 48-bit fraction. -/
structure Stu where
  tick    : DWord
  frac    : Nat
  sec     : Nat
  ns      : Nat
  calFrac : Nat
  deriving DecidableEq, Repr

/-! ### Downstream -/

/-- The line frame that is arriving (R80, R90). -/
structure LineFrame where
  sfc      : Nat
  /-- Receive mode when it began (R82). -/
  mode     : Nat
  /-- Time of its start marker in the form of R413 (R130). -/
  mark     : Nat
  /-- Bytes of decoded content. -/
  len      : Nat
  /-- Where the next envelope header is due (R101). -/
  pos      : Nat
  /-- Envelopes are taken from it: it was accepted and its delineation has not ended. -/
  open_    : Bool
  /-- It has advanced the delineation epoch (R116). -/
  bumped   : Bool
  /-- Its header has ended and the guard has evaluated it (R90). -/
  evald    : Bool
  /-- It is counted as errored (R577). -/
  errd     : Bool
  /-- Its words flagged FEC-uncorrectable, by number (R80). -/
  flagged  : List Nat
  deriving DecidableEq, Repr

/-- An envelope between the port filter and reassembly (R112, R113). -/
structure CipherItem where
  /-- It waits for the cipher engine. -/
  enc     : Bool
  /-- An orderly disable has discarded its fragment while the engine held it (R61). -/
  drop    : Bool
  port    : Nat
  ctx     : Nat
  /-- Bytes 0x00 to 0x07 of its context, as read at the port filter (R269). -/
  aw      : Nat
  key     : Nat
  last    : Bool
  payload : List Byte
  seedA   : DWord
  seedB   : Word
  /-- Delineation epoch at its delineation (R116). -/
  epoch   : Nat
  /-- Timestamp of its first payload byte (R130). -/
  ts      : DWord
  deriving DecidableEq, Repr

/-- The downstream receiver beside its registers: the line frame, the SFC before it (R86, R88), the
envelopes before reassembly, and what each partial frame fixed at its entry (R296). -/
structure Ds where
  cur     : Option LineFrame
  prevSfc : Option Nat
  /-- The seed of a handover's image, and the start markers for which it is still held (R544). -/
  seed    : Option (Nat × Nat)
  cipherQ : List CipherItem
  entry   : Sparse (Option Entry)
  /-- Bytes of CONTEXT space that the parser's resume state was last written to by the parser, not by the host (R268,
  R269). -/
  resume  : Sparse Bool
  deriving DecidableEq, Repr

/-! ### The Headland core -/

/-- A record that waits for the mailbox ring (R557, R558). -/
structure Note where
  notice : Bool
  code   : Nat
  chan   : Nat
  status : Nat
  tag    : Word
  tick   : DWord
  data   : List Byte
  deriving DecidableEq, Repr

/-- A log record that firmware has still to write (R573, R574). (DEDUCED, log entry 107) -/
structure LogReq where
  kind : Nat
  chan : Nat
  data : List Byte
  deriving DecidableEq, Repr

/-- An image in a persist slot, or staged (R566, R568). -/
structure FwImage where
  valid   : Bool
  /-- A write of it failed or was cut short. -/
  torn    : Bool
  svn     : Nat
  version : Nat
  /-- Register image VERSIONs: the lowest that it accepts, and the one that it writes (R540, R566). -/
  regMin  : Nat
  regCur  : Nat
  deriving DecidableEq, Repr

/-- An image slot that holds nothing. -/
def FwImage.none : FwImage := ⟨false, false, 0, 0, 0, 0⟩

/-- Firmware images (R567 to R572). -/
structure Firmware where
  slotA    : FwImage
  slotB    : FwImage
  accepted : Nat
  /-- The staged image (R567). -/
  staged   : Option FwImage
  /-- FW_IMAGE space is locked (R567). -/
  locked   : Bool
  /-- Slot that an accepted FW_WRITE writes, and the image written (R568). -/
  writing  : Option (Nat × FwImage)
  /-- READY has been raised by the running image (R569). -/
  ready    : Bool
  /-- Firmware has done what it does before a channel can leave Disabled after a device reset (R648, R649). -/
  started  : Bool
  /-- The persist device's monotonic counter (R568). -/
  counter  : Nat
  deriving DecidableEq, Repr

/-- The management message queues of a channel (R156, R158). -/
structure MgmtQ where
  down     : List (List Byte)
  up       : List (List Byte)
  /-- Serial-number response template (R149). -/
  template : List Byte
  deriving DecidableEq, Repr

/-- A slot of the key store (R561, R604). -/
structure KeySlot where
  k256 : Bool
  key  : BitVec 256
  deriving DecidableEq, Repr

/-- Mailbox and log state beside their registers (R555, R558, R573, R576). -/
structure Mailbox where
  /-- Records waiting for the mailbox ring, oldest first. -/
  notes  : List Note
  /-- Notices were discarded since the last notice (R558). -/
  lost   : Bool
  /-- A fatal code ended the taking of commands (R658). -/
  dead   : Bool
  /-- Log records that firmware has still to write. -/
  logDue : List LogReq
  /-- LOG has been raised and HL_LOG_CONS not written since (R575). -/
  logHit : Bool
  /-- Device reset count (R573). -/
  boots  : Nat
  /-- Records in the persist log, newest last, and in its pinned area (R576). -/
  psLog    : List (List Byte)
  psPinned : List (List Byte)
  /-- Records not yet persisted, oldest first. -/
  psDue  : List (List Byte)
  /-- A persist write has failed and is to be retried (R576). -/
  psFail : Bool
  deriving DecidableEq, Repr

/-! ### Upstream -/

/-- A grant of the channel (R181). -/
structure Grant where
  /-- Allocation slot; none for a serial-number grant. -/
  slot    : Option Nat
  report  : Bool
  msg     : Bool
  profile : Nat
  /-- START_TIME and GRANT_SIZE in units of u (R178). -/
  start   : Nat
  size    : Nat
  /-- Content bytes that it carries (R185). -/
  cap     : Nat
  /-- It accepts fast re-entry (R166). -/
  acc     : Bool
  /-- Its allocation ID. -/
  alloc   : Nat
  deriving DecidableEq, Repr

/-- A transmit frame whose last envelope is staged and whose last byte has not left yet (R202). -/
structure Flying where
  src   : Option TxSrc
  len   : Nat
  ftype : Nat
  /-- It had an uncorrectable cell error (R204). -/
  cellErr : Bool
  ts    : DWord
  /-- Offset behind its last byte in the burst. -/
  stop  : Nat
  deriving DecidableEq, Repr

/-- What stands next in a burst that is being built (R186): `report k`, `body k` and `idle k` are of its grant number k;
at `idle k` the rest of the grant is idle fill. -/
inductive BurstPos where
  | header
  | message
  | report (k : Nat)
  | body (k : Nat)
  | idle (k : Nat)
  | trailer
  | ended
  deriving DecidableEq, Repr

/-- How far a burst is built (R198): the content staged so far, what stands next, and where idle bytes lie in the
content (R191). `cut`: the offset from which a staging fault has replaced the rest of its content (R204, R605). -/
structure Built where
  out  : List Byte
  pos  : BurstPos
  idle : List (Nat × Nat)
  cut  : Option Nat
  deriving DecidableEq, Repr

/-- No content is built yet. -/
def Built.none : Built := ⟨[], .header, [], .none⟩

/-- A window of the burst guard (R206): its ends in units of 2^-10 ps, and the allocation ID of its first grant. -/
structure Window where
  start : Int
  stop  : Int
  alloc : Nat
  deriving DecidableEq, Repr

/-- A burst that the builder serves (R182 to R188). Times are the channel's, in units of 2^-10 ps. -/
structure Burst where
  grants  : List Grant
  /-- SFC of the line frame that carried its map. -/
  sfc     : Nat
  /-- A serial-number burst (R149). -/
  sn      : Bool
  /-- Its message: a management message is due (R186). -/
  msg     : Bool
  profile : Nat
  sMed    : Int
  sIf     : Int
  wOn     : Int
  wOff    : Int
  built   : Built
  /-- Its frames whose last envelope is staged, in order (R202). -/
  done    : List Flying
  started : Bool
  on      : Bool
  off     : Bool
  deriving DecidableEq, Repr

/-- The burst builder, scheduler and guard beside their registers. -/
structure Us where
  /-- TX_EN at the pin, and as the burst builder drives it (R205, R206). -/
  txEn    : Bool
  bld     : Bool
  /-- A trip has been counted in the present window (R207). -/
  trip    : Bool
  bursts  : List Burst
  /-- The windows that the guard has computed, without their slack (R206). -/
  windows : List Window
  /-- End of the PAUSE timer and of the PFC timers, as tick counts (R212). -/
  pause   : Sparse (Option DWord)
  /-- DWRR deficits of the queues, the current queue of each slot, and the SCHED of its last selection
  (R195, R197). -/
  deficit : Sparse Nat
  curq    : Sparse (Option Nat)
  sched   : Sparse Nat
  /-- Latched at the start marker: CH_ACT_EQD and EQD_VALID, DELAY_MAX and LEAD_US (R150, R154). -/
  eqd     : Nat
  eqdOk   : Bool
  delayMax : Nat
  lead    : Nat
  /-- Bytes staged so far: the model's own count, to which the free placement in the staging buffer is
  applied. -/
  staged  : Nat
  /-- What the framer took of a burst in progress that a halt or a channel reset ended (R625). -/
  cut     : Option (List Byte)
  deriving DecidableEq, Repr

/-- Activation state beside CH_ACT_STATUS: the head-end identity last announced, and for fast re-entry the
accepted line frames counted, whether a grant has accepted it, WAIT and HOLD as read, and the messages that firmware
has still to read before it acts on that grant (R166, R168); and the expiries of TO1 and TO2 that firmware has still to
act on (R572). -/
structure ActAux where
  headEnd : Nat
  count   : Option Nat
  grant   : Bool
  wait    : Nat
  hold    : Nat
  ahead   : Nat
  to1     : Bool
  to2     : Bool
  deriving DecidableEq, Repr

/-- An entry of the transmit timestamp queue (R440). -/
structure TsqEntry where
  tag   : Nat
  queue : Nat
  ts    : DWord
  deriving DecidableEq, Repr

/-- A channel time unit beside its registers: the lower 32 bits of O's fraction, whether its head end was
eligible when last looked at, and whether it is a valid source (R417, R426). -/
structure Tu where
  frac  : Nat
  elig  : Bool
  valid : Bool
  deriving DecidableEq, Repr

/-- PPS state: the tick of the last accepted input edge, and the second of the ToD message that is due
(R420, R617). -/
structure Pps where
  last   : Option DWord
  todDue : Option Nat
  deriving DecidableEq, Repr

/-! ### Drill, power, fallow management, performance monitoring -/

/-- A Drill entry (R445). Times are in units of 2^-16 ns; TARGET, ARG and the flags as in R446; STATE and
RESULT as in the staging register. -/
structure DrillEntry where
  time   : Nat
  action : Nat
  target : Nat
  arg    : Nat
  period : Nat
  count  : Nat
  remain : Nat
  lateOk : Bool
  en     : Bool
  state  : Nat
  result : Nat
  fired  : Nat
  deriving DecidableEq, Repr

/-- An entry that has never been written. -/
def DrillEntry.empty : DrillEntry := ⟨0, 0, 0, 0, 0, 0, 0, false, false, 0, 0, 0⟩

/-- A channel's power sequencer beside CH_PWR_STATUS (R472 to R491). -/
structure Pwr where
  /-- The core island clock is stopped (R42). -/
  clkOff  : Bool
  /-- The entry under way was forced, and its variant: Stop-watch (R471). -/
  forced  : Bool
  watch   : Bool
  /-- The signatures stored in the always-on island, by group; none when they are cleared (R472, R488, R491). -/
  seals   : List (BitVec 64)
  /-- Channel short time at which the entry was requested (R459). -/
  asked   : Word
  /-- Tick count at which the core clock stopped (R428, R460). -/
  since   : DWord
  /-- How long the core clock has been stopped in all: a copier's own clock stands still as long (R529). -/
  slept   : DWord
  /-- Tick count at which the wake started (R479, R483). -/
  wakeAt  : DWord
  /-- Gate actions held for wake or RESUME: queue and closed (R457). -/
  gates   : List (Nat × Bool)
  /-- LANE_SEL and LANE_CLAIM as the hold cells latched them (R484, R625). -/
  lane    : Option (Nat × Bool)
  deriving DecidableEq, Repr

/-- A second whose availability is not yet decided (R578, R580). -/
structure PmSec where
  sec : Nat
  mon : Bool
  es  : Bool
  ses : Bool
  uas : Bool
  /-- Calendar time was stepped or set in it (R580). -/
  susp : Bool
  deriving DecidableEq, Repr

/-- A second that has ended while a line frame of it could still be found errored: its number, its counts, and
HL_CNT_STU_STEPS when it ended (R577). -/
structure PmHeld where
  sec   : Nat
  lf    : Nat
  err   : Nat
  loss  : Bool
  mon   : Bool
  steps : DWord
  deriving DecidableEq, Repr

/-- Performance monitoring of a channel beside its bins (R577 to R582). -/
structure Pm where
  /-- Line frames, errored line frames and sync loss of the current second; monitored so far. -/
  lf    : Nat
  err   : Nat
  loss  : Bool
  mon   : Bool
  /-- The second before, while its last line frame arrives. -/
  held  : Option PmHeld
  /-- Seconds not yet committed, oldest first. -/
  open_ : List PmSec
  /-- Last second evaluated. -/
  last  : Option Nat
  /-- Bins of the current second's evaluation whose LAST awaits the core's copy: 15-minute, 24-hour. -/
  due15 : Bool
  due24 : Bool
  /-- Start seconds of the current bins; and HL_CNT_STU_STEPS when a second was last evaluated. -/
  start15 : Option Nat
  start24 : Option Nat
  steps : DWord
  deriving DecidableEq, Repr

/-- What the fallow manager keeps of a channel (R525, R527, R549, R550). -/
structure Fallow where
  /-- A reset has completed since the channel last left Handover or Halted. -/
  clean   : Bool
  /-- Heartbeat last seen by the wedge detector, and when it last advanced. -/
  beat    : Nat
  beatAt  : DWord
  /-- Wear samples of each bank, newest first: second, correctable and uncorrectable count; and the second
  of the last report. -/
  wear    : Sparse (List (Nat × Nat × Nat))
  worn    : Sparse (Option Nat)
  /-- Tick count of the last STAGE_ECC event. -/
  stageEcc : Option DWord
  deriving DecidableEq, Repr

/-- A host write that a mover set has issued and whose response has not come (R509, R519). `off`: its offset in the active
transfer, and none for a write of an earlier one. `record`: it is a result record (R516) and no chunk. `tries`: how often
it has been issued again (R517, R589). -/
structure MvWrite where
  addr   : DWord
  bytes  : List Byte
  off    : Option Nat
  record : Bool
  tries  : Nat
  deriving DecidableEq, Repr

/-- A mover set beside its registers (R502, R514): the active copies of its shadowed registers, what it has
read so far in ascending order, the value and parity it continues from, how many bytes are moved, its host writes without
response, oldest first, the retries of a read of its present chunk (R517), and whether it waits for the read-back of a
barrier (R515). -/
structure Mover where
  src   : DWord
  dst   : DWord
  count : Nat
  space : Word
  ctl   : Word
  res   : DWord
  done  : Nat
  seen  : List Byte
  init  : Word
  odd   : Bool
  /-- The previous transfer's stream ended at an odd position. -/
  tailOdd : Bool
  out   : List MvWrite
  tries : Nat
  readBack : Bool
  deriving DecidableEq, Repr

/-- A set that has moved nothing. -/
def Mover.idle : Mover := ⟨0, 0, 0, 0, 0, 0, 0, [], 0, false, false, [], 0, false⟩

/-- A DVFS change in progress (R495): management island, voltage, requested index. -/
structure Dvfs where
  mg    : Bool
  volt  : Bool
  index : Nat
  deriving DecidableEq, Repr

/-! ### A channel -/

/-- A channel. Registers and counters are those of its window; the memories are those of R505 and R506. -/
structure Chan where
  /-- Registers, by offset in the channel's window (R13, R646). -/
  regs   : Sparse Word
  /-- Counters, by offset (R27, R646). -/
  cnts   : Sparse DWord
  /-- High words latched by reads of low words (R26). -/
  latch  : Sparse (Option Word)
  /-- Tree memory (R252). -/
  tree   : Sparse Byte
  /-- Context memory: flow contexts, rule records, fragment table, cell table and indices (R506). -/
  ctxm   : Sparse Byte
  /-- Buffer memory (R312). -/
  buf    : Sparse Byte
  /-- Staging buffer (R199). -/
  stg    : Sparse Byte
  stream : Stream
  rings  : Rings
  gr     : Granary
  /-- Rows that a migration wrote with an ECC that reads as uncorrectable (R336, R528). -/
  badRows : List EccFault
  /-- The root check that runs, and behind it those of arms that wait for it: each with its slot and, for an arm, its time
  and whether it arrived late (R294, R300, R301). -/
  checks : List (Nat × Option (DWord × Bool))
  /-- Armed slots with their times, by slot (R300). -/
  armHeld : List (Nat × DWord)
  ds     : Ds
  us     : Us
  act    : ActAux
  tu     : Tu
  /-- Timestamp queue, oldest first (R440). -/
  tsq    : List TsqEntry
  /-- The committed hash key (R283). -/
  tkey   : BitVec 320
  /-- Frame-port lanes (R607, R608). -/
  lanes  : Sparse (List FpDeliv)
  /-- The lane of the last frame sent on the frame port, its metadata and its bytes (R606 to R608). -/
  fpo    : Option (Nat × List Byte × List Byte)
  /-- The frame presented on the frame port waits for its reservation, and is counted (R323, R611). -/
  fpWait : Bool
  /-- An orderly disable runs (R61). -/
  disabling : Bool
  /-- Key slots valid in the cipher engine, as 2 times the set plus the slot less 1 (R604). -/
  keys   : List Nat
  /-- CP_REQ_KIND and CP_REQ_DATA of the header or key item last passed to the cipher port (R601, R602, R604). -/
  cpReq  : Option (Nat × BitVec 512)
  /-- Registered ports with their flow contexts (R106). -/
  ports  : Sparse (Option Nat)
  /-- Drill entries, by number (R444), and the entries in the firing queue, in time order (R448). -/
  drill  : Sparse DrillEntry
  drillQ : List Nat
  pwr    : Pwr
  pm     : Pm
  fm     : Fallow
  deriving DecidableEq, Repr

/-! ### The Headland -/

/-- What stands in a segment of the host buffer: bytes, or a space of a given length with the bytes that are not zero. -/
inductive SegData where
  | bytes (bs : List Byte)
  | space (len : Nat) (m : Sparse Byte)
  deriving DecidableEq, Repr

/-- A segment that the fallow manager has written to the host buffer, at a host address (R539). -/
structure ImageSeg where
  addr : DWord
  data : SegData
  deriving DecidableEq, Repr

/-- What the register image and the segments of the host buffer stand for (R539). PREPARE exports the configuration part
of the register image and TREE space; TRANSFER exports the rest: the rest of the register image, CONTEXT space and the
allocated cells. -/
structure HoImage where
  config : List (Nat × Word)
  tree   : Option (Sparse Byte)
  full   : Option Chan
  deriving DecidableEq, Repr

/-- A handover that runs (R533, R534). -/
structure Ho where
  src      : Nat
  tgt      : Nat
  buffer   : DWord
  hostCfg  : Bool
  /-- The source was in Stop when the command was accepted, and is being woken. -/
  waking   : Bool
  /-- Kind of source: 0 live, 1 Halted, 2 wedged. -/
  kind     : Nat
  /-- Mode and activation state that a live source left at the freeze. -/
  mode     : Nat
  act      : Nat
  /-- Tick count at which FREEZE began, the SFC of the last line frame accepted then, and the seed, where the source was in
  ACCEPT (R538, R539). -/
  freeze   : DWord
  sfc      : Nat
  seed     : Option Nat
  /-- What the host buffer holds of the source's image, and the segments written to it, oldest first. -/
  image    : Option HoImage
  written  : List ImageSeg
  /-- Halts of its mover sets (R547). -/
  halts    : Nat
  /-- A condition of R535 has not held in the window. -/
  slow     : Bool
  /-- What RESUME has come to (R545). -/
  result   : Option Nat
  deriving DecidableEq, Repr

/-- The pins that no register shows (R614 to R623), and what was last sent on them. -/
structure Pins where
  /-- The last vector message (R408) and doorbell-line watch message (R592). -/
  vecLast   : Option Nat
  watchLast : Option (DWord × Bool)
  /-- The device reset is held (R634). -/
  resetHeld : Bool
  /-- A reset request of HL_RST_DEVICE whose reset has not begun, with the tick count at which it does, and
  RST_N low at some moment of the reset (R634, R635). -/
  resetAt   : Option DWord
  rstN      : Bool
  /-- PPS_OUT (R422) and the last ToD message sent (R616). -/
  pps       : Bool
  todLast   : Option (List Byte)
  /-- When TOD_OUT began that message (R616). -/
  todAt     : DWord
  /-- Pulses in progress on each trigger output, with their ends (R452). -/
  trig      : Sparse (List DWord)
  /-- End of the window of an armed capture input; none without a limit (R455). -/
  capEnd    : Sparse (Option DWord)
  /-- Tick count of the last capture at each input (R455). -/
  capAt     : Sparse (Option DWord)
  /-- TEST_EN (R624). -/
  testEn    : Bool
  /-- Data and RSP_ERR of the last target-side read or error answer of a row of its own (R26, R593, R643). -/
  rsp       : Option (DWord × Bool)
  deriving DecidableEq, Repr

/-- The Headland (R3). -/
structure Headland where
  regs     : Sparse Word
  cnts     : Sparse DWord
  latch    : Sparse (Option Word)
  stream   : Stream
  /-- The stream whose turn is next at the host port: a channel's number, or 17 (R36, R399). -/
  turn     : Nat
  /-- Event records deferred for a full ring (R405), oldest first. -/
  deferred : List EvRec
  evr      : Sparse EvrAux
  stu      : Stu
  pps      : Pps
  pins     : Pins
  /-- Core copy queues and management frames on their way to the mailbox (R109, R278, R559). -/
  core     : List CoreEntry
  mb       : Mailbox
  /-- LOG memory (R573). -/
  log      : Sparse Byte
  /-- FW_IMAGE memory (R567). -/
  fwImage  : Sparse Byte
  /-- The 2 MiB of instruction and data memory of the management core, which no access reaches (R51). -/
  coreMem  : Sparse Byte
  fw       : Firmware
  /-- Management message queues of the channels (R156, R158). -/
  mq       : Vector MgmtQ 17
  /-- Identity records, and their persist copies (R160, R163). -/
  ident    : Sparse Byte
  psIdent  : Sparse Byte
  /-- References of the ageing monitors, by index, in the persist store; none are recorded before the first boot (R564,
  R620). -/
  ageRefs  : List Word
  /-- Key store (R561). -/
  keyStore : Sparse (Option KeySlot)
  /-- Random delays that each channel has drawn since the device reset: the model's own count, to which the free draw
  is applied (R150). -/
  draws    : Sparse Nat
  /-- Drill entries, by number (R444), and the entries in the firing queue, in time order (R448). -/
  drill    : Sparse DrillEntry
  drillQ   : List Nat
  /-- Mover sets, by number (R502). -/
  movers   : Sparse Mover
  ho       : Option Ho
  /-- The FALLOW_TEST command that runs (R551). -/
  testing  : Option CmdHead
  dvfs     : Option Dvfs
  /-- Consecutive readings beyond and within the limits, by alarm number: 0 thermal, 64 voltage low, 128
  voltage high, 192 ageing, plus the index (R565). -/
  beyond   : Sparse Nat
  within   : Sparse Nat
  /-- Which side a voltage alarm set at: high. -/
  vHigh    : Sparse Bool
  deriving DecidableEq, Repr

/-- The block: its channels, the Headland, and the commands that wait. -/
structure State where
  chans   : Vector Chan 17
  hl      : Headland
  pending : List Instr
  deriving DecidableEq, Repr

/-! ### Reset (R76, R77, R646) -/

/-- Offset of CH_MODE in a channel's window. -/
def chModeOff : Nat := 0

/-- A channel after a device reset: Disabled, with every register at its reset value and the memories zero
(R76). CH16 reads CH_MODE.FALLOW as 1 (R55). -/
def Chan.reset (c : Nat) : Chan :=
  { regs := if c = 16 then [(chModeOff, 0x41)] else []
    cnts := [], latch := [], tree := [], ctxm := [], buf := [], stg := []
    stream := ⟨[], 0, false, false⟩
    rings := ⟨[], [], [], none, 0, [], [], []⟩
    gr := ⟨[], [], none, [], []⟩
    badRows := [], checks := [], armHeld := []
    ds := ⟨none, none, none, [], [], []⟩
    us := ⟨false, false, false, [], [], [], [], [], [], 0, false, 0, 0, 0, none⟩
    act := ⟨0, none, false, 0, 0, 0, false, false⟩
    tu := ⟨0, false, false⟩
    tsq := [], tkey := 0, lanes := [], fpo := none, fpWait := false, disabling := false, keys := [], cpReq := none
    ports := [], drill := [], drillQ := []
    pwr := ⟨false, false, false, [], 0, 0, 0, 0, [], none⟩
    pm := ⟨0, 0, false, false, none, [], none, false, false, none, none, 0⟩
    fm := ⟨true, 0, 0, [], [], none⟩ }

/-- The Headland after a device reset. What outlives the reset (the persist store, the device reset count) is
empty in a device that has never run. (DEDUCED, log entry 31; DESIGN CHOICE, log entry 5) -/
def Headland.reset : Headland :=
  { regs := [], cnts := [], latch := []
    stream := ⟨[], 0, false, false⟩
    turn := 0
    deferred := [], evr := []
    stu := ⟨0, 0, 0, 0, 0⟩
    pps := ⟨none, none⟩
    pins := ⟨none, none, false, none, false, false, none, 0, [], [], [], false, none⟩
    core := []
    mb := ⟨[], false, false, [], false, 0, [], [], [], false⟩
    log := [], fwImage := [], coreMem := []
    fw := ⟨.none, .none, 0, none, false, none, false, false, 0⟩
    ageRefs := []
    mq := Vector.replicate 17 ⟨[], [], []⟩
    ident := [], psIdent := [], keyStore := [], draws := [], drill := [], drillQ := [], movers := []
    ho := none, testing := none, dvfs := none, beyond := [], within := [], vHigh := [] }

/-- The channels after a device reset. -/
def resetChans : Vector Chan 17 :=
  ⟨#[Chan.reset 0, Chan.reset 1, Chan.reset 2, Chan.reset 3, Chan.reset 4, Chan.reset 5, Chan.reset 6,
     Chan.reset 7, Chan.reset 8, Chan.reset 9, Chan.reset 10, Chan.reset 11, Chan.reset 12, Chan.reset 13,
     Chan.reset 14, Chan.reset 15, Chan.reset 16], rfl⟩

/-- The block right after a device reset, with no command waiting.
(DEDUCED, log entry 3; DESIGN CHOICE, log entry 2) -/
def State.reset : State := ⟨resetChans, Headland.reset, []⟩

end Sys2Proof.Machine
end

