-- ==== Sys2Proof/Machine/RegMap.lean ====
section
/-!
DEFINITION. The register map of the block (R646 and the tables of the topic chapters): the offset of
each register, the places of its fields, and for each register its reset value and which of its bits
are RW, W1C and W1S (R20 to R22). Offsets of `CH_` registers are from the channel's window, those of
`HL_` and `MV_` registers from the Headland window.
-/

namespace Sys2Proof.Machine

/-- A field of a 32-bit register: its lowest bit and its width. -/
structure Field where
  lo : Nat
  w  : Nat
  deriving DecidableEq, Repr

/-- One row of the register list: a register or an array of registers. `dims` lists, outermost first,
the stride and the count of each index. -/
structure RegRow where
  name  : String
  base  : Nat
  dims  : List (Nat × Nat)
  reset : Nat
  rw    : Nat
  w1c   : Nat
  w1s   : Nat
  deriving DecidableEq, Repr

namespace Reg

/-- 02_channel_modes R55. -/
def CH_MODE : Nat := 0x0
/-- 02_channel_modes R56. -/
def CH_MODE_CTL : Nat := 0x4
/-- 02_channel_modes R63. -/
def CH_HALT_CAUSE : Nat := 0x8
/-- 02_channel_modes R73. -/
def CH_RESET : Nat := 0xc
/-- 02_channel_modes R66. -/
def CH_HALT_TIME : Nat := 0x10
/-- 03_downstream R81. -/
def CH_DS_CFG : Nat := 0x1000
/-- 03_downstream R91. -/
def CH_DS_SYNC : Nat := 0x1004
/-- 03_downstream R92. -/
def CH_DS_STATUS : Nat := 0x1008
/-- 03_downstream R93. -/
def CH_DS_SFC_LO : Nat := 0x1010
/-- 03_downstream R93. -/
def CH_DS_SFC_HI : Nat := 0x1014
/-- 03_downstream R128. -/
def CH_RX_CFG : Nat := 0x1020
/-- 03_downstream R122. -/
def CH_RX_REASM : Nat := 0x1024
/-- 03_downstream R133. -/
def CH_TS_DS_FIXED : Nat := 0x1030
/-- 03_downstream R134. -/
def CH_TS_DS_LINE : Nat := 0x1034
/-- 03_downstream R135. -/
def CH_TS_DS_FEC : Nat := 0x1038
/-- 03_downstream R136. -/
def CH_TS_DS_BIT : Nat := 0x103c
/-- CH_DS_BCAST, 03_downstream R107. -/
def CH_DS_BCAST (i : Nat) : Nat := 0x1040 + 4 * i
/-- 05_upstream_bursts R215. -/
def CH_US_CFG : Nat := 0x2000
/-- 05_upstream_bursts R215. -/
def CH_US_RSP : Nat := 0x2004
/-- 05_upstream_bursts R215. -/
def CH_US_LASER : Nat := 0x2008
/-- 05_upstream_bursts R215. -/
def CH_US_GUARD : Nat := 0x200c
/-- 05_upstream_bursts R215. -/
def CH_TS_US_FIXED : Nat := 0x2010
/-- 05_upstream_bursts R215. -/
def CH_US_BIT : Nat := 0x2014
/-- 05_upstream_bursts R216. -/
def CH_US_FEC : Nat := 0x2018
/-- 05_upstream_bursts R216. -/
def CH_US_PAUSE_CFG : Nat := 0x2020
/-- 05_upstream_bursts R216. -/
def CH_US_PAUSE_MAC_LO : Nat := 0x2024
/-- 05_upstream_bursts R216. -/
def CH_US_PAUSE_MAC_HI : Nat := 0x2028
/-- 05_upstream_bursts R216. -/
def CH_US_PAUSE_STATUS : Nat := 0x202c
/-- CH_US_PROFILE, 05_upstream_bursts R217. -/
def CH_US_PROFILE (i : Nat) : Nat := 0x2040 + 4 * i
/-- CH_US_SLOT, 05_upstream_bursts R193. -/
def CH_US_SLOT (i : Nat) : Nat := 0x2400 + 4 * i
/-- 04_activation R148. -/
def CH_ACT_STATUS : Nat := 0x2800
/-- 04_activation R155. -/
def CH_ACT_EQD : Nat := 0x2804
/-- 04_activation R153. -/
def CH_ACT_SN_CFG : Nat := 0x2808
/-- 04_activation R168. -/
def CH_ACT_CFG : Nat := 0x280c
/-- 04_activation R168. -/
def CH_ACT_TIMERS : Nat := 0x2810
/-- 04_activation R168. -/
def CH_ACT_FAST : Nat := 0x2814
/-- 06_parsing R232. -/
def CH_PARSE_CFG : Nat := 0x3000
/-- 06_parsing R232. -/
def CH_PARSE_TPID : Nat := 0x3004
/-- 06_parsing R232. -/
def CH_PARSE_UDP : Nat := 0x3008
/-- 06_parsing R237. -/
def CH_PARSE_MALFORMED : Nat := 0x300c
/-- 06_parsing R248. -/
def CH_FRAG_CFG : Nat := 0x3010
/-- 06_parsing R248. -/
def CH_FRAG_STATUS : Nat := 0x3014
/-- 07_decision_trees R279. -/
def CH_CLS_CFG : Nat := 0x3018
/-- CH_KEY_SEL_DS, 06_parsing R231. -/
def CH_KEY_SEL_DS (i : Nat) : Nat := 0x3020 + 8 * i
/-- CH_KEY_SEL_US, 06_parsing R231. -/
def CH_KEY_SEL_US (i : Nat) : Nat := 0x3024 + 8 * i
/-- CH_TREE_SEL_DS, 07_decision_trees R259. -/
def CH_TREE_SEL_DS (i : Nat) : Nat := 0x3040 + 8 * i
/-- CH_TREE_SEL_US, 07_decision_trees R259. -/
def CH_TREE_SEL_US (i : Nat) : Nat := 0x3044 + 8 * i
/-- CH_CLS_MIRROR, 07_decision_trees R279. -/
def CH_CLS_MIRROR (i : Nat) : Nat := 0x3060 + 4 * i
/-- CH_HASH_FIELDS_LO, 07_decision_trees R286. -/
def CH_HASH_FIELDS_LO (i : Nat) : Nat := 0x3070 + 8 * i
/-- CH_HASH_FIELDS_HI, 07_decision_trees R286. -/
def CH_HASH_FIELDS_HI (i : Nat) : Nat := 0x3074 + 8 * i
/-- CH_HASH_TKEY, 07_decision_trees R286. -/
def CH_HASH_TKEY (i : Nat) : Nat := 0x3090 + 4 * i
/-- CH_TREE_ROOT, 07_decision_trees R259. -/
def CH_TREE_ROOT (i j : Nat) : Nat := 0x3100 + 32 * i + 4 * j
/-- 08_sheaves R291. -/
def CH_SHEAF_CTL : Nat := 0x3200
/-- 08_sheaves R310. -/
def CH_SHEAF_STATUS : Nat := 0x3204
/-- 08_sheaves R310. -/
def CH_SHEAF_CHECK : Nat := 0x3208
/-- 08_sheaves R310. -/
def CH_SHEAF_ARM : Nat := 0x320c
/-- 08_sheaves R310. -/
def CH_SHEAF_ARM_T_LO : Nat := 0x3210
/-- 08_sheaves R310. -/
def CH_SHEAF_ARM_T_HI : Nat := 0x3214
/-- 08_sheaves R310. -/
def CH_SHEAF_LAST_T_LO : Nat := 0x3218
/-- 08_sheaves R310. -/
def CH_SHEAF_LAST_T_HI : Nat := 0x321c
/-- CH_SHEAF_TAG, 08_sheaves R310. -/
def CH_SHEAF_TAG (i : Nat) : Nat := 0x3220 + 16 * i
/-- CH_SHEAF_INFLIGHT, 08_sheaves R310. -/
def CH_SHEAF_INFLIGHT (i : Nat) : Nat := 0x3224 + 16 * i
/-- CH_SHEAF_PINS, 08_sheaves R310. -/
def CH_SHEAF_PINS (i : Nat) : Nat := 0x3228 + 16 * i
/-- CH_SHEAF_FRAGS, 08_sheaves R310. -/
def CH_SHEAF_FRAGS (i : Nat) : Nat := 0x322c + 16 * i
/-- CH_KEY_EXT, 06_parsing R231. -/
def CH_KEY_EXT (i j k : Nat) : Nat := 0x3400 + 512 * i + 64 * j + 4 * k
/-- CH_IND, 07_decision_trees R286. -/
def CH_IND (i : Nat) : Nat := 0x3c00 + 4 * i
/-- 09_granary R339. -/
def CH_GR_CFG : Nat := 0x4000
/-- 09_granary R339. -/
def CH_GR_STATUS : Nat := 0x4004
/-- 09_granary R339. -/
def CH_GR_GLEAN : Nat := 0x4008
/-- 09_granary R340. -/
def CH_GR_BANKS : Nat := 0x400c
/-- 09_granary R340. -/
def CH_GR_MIGRATE : Nat := 0x4010
/-- 09_granary R340. -/
def CH_GR_FAULT : Nat := 0x4014
/-- CH_GR_ERR, 09_granary R340. -/
def CH_GR_ERR (i : Nat) : Nat := 0x4100 + 4 * i
/-- CH_RXQ_CTL, 10_rings R374. -/
def CH_RXQ_CTL (i : Nat) : Nat := 0x6000 + 32 * i
/-- CH_RXQ_START, 10_rings R374. -/
def CH_RXQ_START (i : Nat) : Nat := 0x6004 + 32 * i
/-- CH_RXQ_BASE_LO, 10_rings R374. -/
def CH_RXQ_BASE_LO (i : Nat) : Nat := 0x6008 + 32 * i
/-- CH_RXQ_BASE_HI, 10_rings R374. -/
def CH_RXQ_BASE_HI (i : Nat) : Nat := 0x600c + 32 * i
/-- CH_RXQ_HEAD, 10_rings R374. -/
def CH_RXQ_HEAD (i : Nat) : Nat := 0x6010 + 32 * i
/-- CH_RXQ_TAIL, 10_rings R374. -/
def CH_RXQ_TAIL (i : Nat) : Nat := 0x6014 + 32 * i
/-- CH_RXQ_STAT, 10_rings R374. -/
def CH_RXQ_STAT (i : Nat) : Nat := 0x6018 + 32 * i
/-- CH_TXQ_CTL, 10_rings R374. -/
def CH_TXQ_CTL (i : Nat) : Nat := 0x8000 + 32 * i
/-- CH_TXQ_START, 10_rings R374. -/
def CH_TXQ_START (i : Nat) : Nat := 0x8004 + 32 * i
/-- CH_TXQ_BASE_LO, 10_rings R374. -/
def CH_TXQ_BASE_LO (i : Nat) : Nat := 0x8008 + 32 * i
/-- CH_TXQ_BASE_HI, 10_rings R374. -/
def CH_TXQ_BASE_HI (i : Nat) : Nat := 0x800c + 32 * i
/-- CH_TXQ_HEAD, 10_rings R374. -/
def CH_TXQ_HEAD (i : Nat) : Nat := 0x8010 + 32 * i
/-- CH_TXQ_TAIL, 10_rings R374. -/
def CH_TXQ_TAIL (i : Nat) : Nat := 0x8014 + 32 * i
/-- CH_TXQ_MAP, 10_rings R374. -/
def CH_TXQ_MAP (i : Nat) : Nat := 0x8018 + 32 * i
/-- CH_TXQ_CTX, 10_rings R374. -/
def CH_TXQ_CTX (i : Nat) : Nat := 0x801c + 32 * i
/-- CH_CRING_CTL, 11_completions_events R408. -/
def CH_CRING_CTL (i : Nat) : Nat := 0xa000 + 32 * i
/-- CH_CRING_START, 11_completions_events R408. -/
def CH_CRING_START (i : Nat) : Nat := 0xa004 + 32 * i
/-- CH_CRING_BASE_LO, 11_completions_events R408. -/
def CH_CRING_BASE_LO (i : Nat) : Nat := 0xa008 + 32 * i
/-- CH_CRING_BASE_HI, 11_completions_events R408. -/
def CH_CRING_BASE_HI (i : Nat) : Nat := 0xa00c + 32 * i
/-- CH_CRING_PROD, 11_completions_events R408. -/
def CH_CRING_PROD (i : Nat) : Nat := 0xa010 + 32 * i
/-- CH_CRING_CONS, 11_completions_events R408. -/
def CH_CRING_CONS (i : Nat) : Nat := 0xa014 + 32 * i
/-- CH_CRING_ARM, 11_completions_events R408. -/
def CH_CRING_ARM (i : Nat) : Nat := 0xa018 + 32 * i
/-- CH_CRING_STAT, 11_completions_events R408. -/
def CH_CRING_STAT (i : Nat) : Nat := 0xa01c + 32 * i
/-- 10_rings R379. -/
def CH_DB_BASE_LO : Nat := 0xa800
/-- 10_rings R379. -/
def CH_DB_BASE_HI : Nat := 0xa804
/-- 10_rings R380. -/
def CH_DB_POLL : Nat := 0xa808
/-- 10_rings R380. -/
def CH_DB_KICK : Nat := 0xa80c
/-- 10_rings R380. -/
def CH_RXQ_HOLD : Nat := 0xa810
/-- 10_rings R381. -/
def CH_RING_FAULT : Nat := 0xa814
/-- 10_rings R381. -/
def CH_RING_FAULT_IDX : Nat := 0xa818
/-- 11_completions_events R408. -/
def CH_CPL_STATUS : Nat := 0xa820
/-- 12_time R442. -/
def CH_TU_CTL : Nat := 0xb000
/-- 12_time R442. -/
def CH_TU_STATUS : Nat := 0xb004
/-- 12_time R442. -/
def CH_TU_KP : Nat := 0xb008
/-- 12_time R442. -/
def CH_TU_KI : Nat := 0xb00c
/-- 12_time R442. -/
def CH_TU_LIMITS : Nat := 0xb010
/-- 12_time R442. -/
def CH_TU_FREQ : Nat := 0xb014
/-- 12_time R442. -/
def CH_TU_OFFSET : Nat := 0xb018
/-- 12_time R442. -/
def CH_TU_INTEG : Nat := 0xb01c
/-- 12_time R442. -/
def CH_TU_PHASE_LO : Nat := 0xb020
/-- 12_time R442. -/
def CH_TU_PHASE_HI : Nat := 0xb024
/-- 12_time R442. -/
def CH_TU_TEQD : Nat := 0xb028
/-- 12_time R442. -/
def CH_TU_ASYM : Nat := 0xb02c
/-- 12_time R442. -/
def CH_TU_CORR : Nat := 0xb030
/-- 12_time R442. -/
def CH_TU_MSG_SFC_LO : Nat := 0xb040
/-- 12_time R442. -/
def CH_TU_MSG_SFC_HI : Nat := 0xb044
/-- 12_time R442. -/
def CH_TU_MSG_SEC_LO : Nat := 0xb048
/-- 12_time R442. -/
def CH_TU_MSG_SEC_HI : Nat := 0xb04c
/-- 12_time R442. -/
def CH_TU_MSG_NS : Nat := 0xb050
/-- 12_time R442. -/
def CH_TU_MSG_ARM : Nat := 0xb054
/-- 12_time R442. -/
def CH_TSQ_STATUS : Nat := 0xb080
/-- 12_time R442. -/
def CH_TSQ_HEAD : Nat := 0xb084
/-- 12_time R442. -/
def CH_TSQ_TS_LO : Nat := 0xb088
/-- 12_time R442. -/
def CH_TSQ_TS_HI : Nat := 0xb08c
/-- 12_time R442. -/
def CH_TSQ_POP : Nat := 0xb090
/-- 14_power R491. -/
def CH_PWR_STATUS : Nat := 0xc000
/-- 14_power R491. -/
def CH_PWR_CTL : Nat := 0xc004
/-- 14_power R491. -/
def CH_IDLE_TIMER : Nat := 0xc008
/-- 14_power R491. -/
def CH_STOP_TIMER : Nat := 0xc00c
/-- 14_power R491. -/
def CH_WAKE_CFG : Nat := 0xc010
/-- 14_power R491. -/
def CH_WAKE_SRC : Nat := 0xc014
/-- 14_power R491. -/
def CH_STOP_REFUSER : Nat := 0xc018
/-- 14_power R491. -/
def CH_PAD_RELEASE : Nat := 0xc01c
/-- 14_power R491. -/
def CH_SEAL_FAIL_LO : Nat := 0xc020
/-- 14_power R491. -/
def CH_SEAL_FAIL_HI : Nat := 0xc024
/-- 16_fallow_handover R551. -/
def CH_LANE : Nat := 0xc030
/-- CH_WAKE_PORT, 14_power R491. -/
def CH_WAKE_PORT (i : Nat) : Nat := 0xc040 + 4 * i
/-- CH_WAKE_MASK, 14_power R491. -/
def CH_WAKE_MASK (i j : Nat) : Nat := 0xc200 + 32 * i + 4 * j
/-- CH_WAKE_CRC, 14_power R491. -/
def CH_WAKE_CRC (i : Nat) : Nat := 0xc210 + 32 * i
/-- 13_drill R463. -/
def CH_DRILL_CMD : Nat := 0xd000
/-- 13_drill R463. -/
def CH_DRILL_S_TIME_LO : Nat := 0xd010
/-- 13_drill R463. -/
def CH_DRILL_S_FRAC : Nat := 0xd018
/-- 13_drill R463. -/
def CH_DRILL_S_PERIOD : Nat := 0xd01c
/-- 13_drill R463. -/
def CH_DRILL_S_ACT : Nat := 0xd020
/-- 13_drill R463. -/
def CH_DRILL_S_TARGET : Nat := 0xd024
/-- 13_drill R463. -/
def CH_DRILL_S_COUNT : Nat := 0xd028
/-- 13_drill R463. -/
def CH_DRILL_S_STATUS : Nat := 0xd02c
/-- 13_drill R463. -/
def CH_DRILL_CFG : Nat := 0xd040
/-- CH_DRILL_GATE, 13_drill R463. -/
def CH_DRILL_GATE (i : Nat) : Nat := 0xd080 + 4 * i
/-- 17_management R658. -/
def CH_PM_CUR15_START_LO : Nat := 0xf000
/-- 17_management R658. -/
def CH_PM_CUR15_ES : Nat := 0xf004
/-- 17_management R658. -/
def CH_PM_CUR15_SES : Nat := 0xf008
/-- 17_management R658. -/
def CH_PM_CUR15_UAS : Nat := 0xf00c
/-- 17_management R658. -/
def CH_PM_CUR15_NMS : Nat := 0xf010
/-- 17_management R658. -/
def CH_PM_CUR15_FLAGS : Nat := 0xf014
/-- 17_management R658. -/
def CH_PM_CUR24_START_LO : Nat := 0xf020
/-- 17_management R658. -/
def CH_PM_CUR24_ES : Nat := 0xf024
/-- 17_management R658. -/
def CH_PM_CUR24_SES : Nat := 0xf028
/-- 17_management R658. -/
def CH_PM_CUR24_UAS : Nat := 0xf02c
/-- 17_management R658. -/
def CH_PM_CUR24_NMS : Nat := 0xf030
/-- 17_management R658. -/
def CH_PM_CUR24_FLAGS : Nat := 0xf034
/-- 17_management R658. -/
def CH_PM_LAST15_START_LO : Nat := 0xf040
/-- 17_management R658. -/
def CH_PM_LAST15_ES : Nat := 0xf044
/-- 17_management R658. -/
def CH_PM_LAST15_SES : Nat := 0xf048
/-- 17_management R658. -/
def CH_PM_LAST15_UAS : Nat := 0xf04c
/-- 17_management R658. -/
def CH_PM_LAST15_NMS : Nat := 0xf050
/-- 17_management R658. -/
def CH_PM_LAST15_FLAGS : Nat := 0xf054
/-- 17_management R658. -/
def CH_PM_LAST24_START_LO : Nat := 0xf060
/-- 17_management R658. -/
def CH_PM_LAST24_ES : Nat := 0xf064
/-- 17_management R658. -/
def CH_PM_LAST24_SES : Nat := 0xf068
/-- 17_management R658. -/
def CH_PM_LAST24_UAS : Nat := 0xf06c
/-- 17_management R658. -/
def CH_PM_LAST24_NMS : Nat := 0xf070
/-- 17_management R658. -/
def CH_PM_LAST24_FLAGS : Nat := 0xf074
/-- 17_management R658. -/
def CH_PM_STATUS : Nat := 0xf080
/-- 17_management R658. -/
def CH_PM_LAST_SEC : Nat := 0xf084
/-- 18_interfaces R613. -/
def CH_PORT_CFG : Nat := 0xf400
/-- 18_interfaces R613. -/
def CH_PORT_STATUS : Nat := 0xf404
/-- 16_fallow_handover R551. -/
def CH_FB_TREE : Nat := 0xf800
/-- 16_fallow_handover R551. -/
def CH_FB_CTX : Nat := 0xf804
/-- 16_fallow_handover R551. -/
def CH_FB_MIGRATE : Nat := 0xf808
/-- CH_FB_ERR, 16_fallow_handover R551. -/
def CH_FB_ERR (i : Nat) : Nat := 0xf840 + 4 * i
/-- 19_register_index R629. -/
def HL_CFG_ID : Nat := 0x0
/-- 19_register_index R630. -/
def HL_CFG_SIZES : Nat := 0x4
/-- 19_register_index R631. -/
def HL_CFG_DESIGN : Nat := 0x8
/-- 19_register_index R632. -/
def HL_SCRATCH : Nat := 0xc
/-- 19_register_index R633. -/
def HL_RST_DEVICE : Nat := 0x1000
/-- 19_register_index R635. -/
def HL_RST_STATUS : Nat := 0x1004
/-- 19_register_index R636. -/
def HL_RST_CHAN_LO : Nat := 0x1008
/-- 19_register_index R636. -/
def HL_RST_CHAN_HI : Nat := 0x100c
/-- HL_RST_RESETS, 19_register_index R638. -/
def HL_RST_RESETS (i : Nat) : Nat := 0x1100 + 32 * i
/-- HL_RST_HALTS, 19_register_index R638. -/
def HL_RST_HALTS (i j : Nat) : Nat := 0x1104 + 32 * i + 4 * j
/-- HL_RST_HALTS7, 19_register_index R638. -/
def HL_RST_HALTS7 (i : Nat) : Nat := 0x111c + 32 * i
/-- 14_power R500. -/
def HL_PWR_BUDGET : Nat := 0x2000
/-- 14_power R500. -/
def HL_PWR_STATUS : Nat := 0x2004
/-- HL_PWR_GRANT, 14_power R500. -/
def HL_PWR_GRANT (i : Nat) : Nat := 0x2040 + 4 * i
/-- 14_power R500. -/
def HL_DVFS_REQ : Nat := 0x2100
/-- 14_power R500. -/
def HL_DVFS_STATUS : Nat := 0x2104
/-- 12_time R442. -/
def HL_STU_CTL : Nat := 0x3000
/-- 12_time R442. -/
def HL_STU_STATUS : Nat := 0x3004
/-- 12_time R442. -/
def HL_STU_KP : Nat := 0x3008
/-- 12_time R442. -/
def HL_STU_KI : Nat := 0x300c
/-- 12_time R442. -/
def HL_STU_LIMITS : Nat := 0x3010
/-- 12_time R442. -/
def HL_STU_FREQ : Nat := 0x3014
/-- 12_time R442. -/
def HL_STU_OFFSET : Nat := 0x3018
/-- 12_time R442. -/
def HL_STU_INTEG : Nat := 0x301c
/-- 12_time R442. -/
def HL_STU_SNAP_CTL : Nat := 0x3020
/-- 12_time R442. -/
def HL_STU_SNAP_TICK_LO : Nat := 0x3024
/-- 12_time R442. -/
def HL_STU_SNAP_TICK_HI : Nat := 0x3028
/-- 12_time R442. -/
def HL_STU_SNAP_SEC_LO : Nat := 0x302c
/-- 12_time R442. -/
def HL_STU_SNAP_SEC_HI : Nat := 0x3030
/-- 12_time R442. -/
def HL_STU_SNAP_NS : Nat := 0x3034
/-- 12_time R442. -/
def HL_STU_SNAP_FRAC : Nat := 0x3038
/-- 12_time R442. -/
def HL_STU_ADJ_NS_LO : Nat := 0x3040
/-- 12_time R442. -/
def HL_STU_ADJ_NS_HI : Nat := 0x3044
/-- 12_time R442. -/
def HL_STU_SET_SEC_LO : Nat := 0x3048
/-- 12_time R442. -/
def HL_STU_SET_SEC_HI : Nat := 0x304c
/-- 12_time R442. -/
def HL_STU_SET_NS : Nat := 0x3050
/-- 12_time R442. -/
def HL_STU_ADJ_CTL : Nat := 0x3054
/-- 12_time R442. -/
def HL_STU_PPS_IN_DELAY : Nat := 0x3060
/-- 12_time R442. -/
def HL_STU_PPS_SEC_LO : Nat := 0x3064
/-- 12_time R442. -/
def HL_STU_PPS_SEC_HI : Nat := 0x3068
/-- 12_time R442. -/
def HL_STU_PPS_OUT : Nat := 0x3070
/-- 12_time R442. -/
def HL_STU_PPS_OUT_OFS : Nat := 0x3074
/-- 12_time R442. -/
def HL_STU_DEVID : Nat := 0x3080
/-- 13_drill R463. -/
def HL_DRILL_CMD : Nat := 0x4000
/-- 13_drill R463. -/
def HL_DRILL_S_TIME_LO : Nat := 0x4010
/-- 13_drill R463. -/
def HL_DRILL_S_TIME_HI : Nat := 0x4014
/-- 13_drill R463. -/
def HL_DRILL_S_FRAC : Nat := 0x4018
/-- 13_drill R463. -/
def HL_DRILL_S_PERIOD : Nat := 0x401c
/-- 13_drill R463. -/
def HL_DRILL_S_ACT : Nat := 0x4020
/-- 13_drill R463. -/
def HL_DRILL_S_TARGET : Nat := 0x4024
/-- 13_drill R463. -/
def HL_DRILL_S_COUNT : Nat := 0x4028
/-- 13_drill R463. -/
def HL_DRILL_S_STATUS : Nat := 0x402c
/-- 13_drill R463. -/
def HL_DRILL_DELTA_LO : Nat := 0x4040
/-- 13_drill R463. -/
def HL_DRILL_DELTA_HI : Nat := 0x4044
/-- HL_DRILL_TRIG, 13_drill R463. -/
def HL_DRILL_TRIG (i : Nat) : Nat := 0x4100 + 4 * i
/-- HL_DRILL_CAP_CTL, 13_drill R463. -/
def HL_DRILL_CAP_CTL (i : Nat) : Nat := 0x4200 + 16 * i
/-- HL_DRILL_CAP_TS_LO, 13_drill R463. -/
def HL_DRILL_CAP_TS_LO (i : Nat) : Nat := 0x4204 + 16 * i
/-- HL_DRILL_CAP_TS_HI, 13_drill R463. -/
def HL_DRILL_CAP_TS_HI (i : Nat) : Nat := 0x4208 + 16 * i
/-- MV_SRC_LO, 15_bulk_mover R521. -/
def MV_SRC_LO (i : Nat) : Nat := 0x5000 + 128 * i
/-- MV_SRC_HI, 15_bulk_mover R521. -/
def MV_SRC_HI (i : Nat) : Nat := 0x5004 + 128 * i
/-- MV_DST_LO, 15_bulk_mover R521. -/
def MV_DST_LO (i : Nat) : Nat := 0x5008 + 128 * i
/-- MV_DST_HI, 15_bulk_mover R521. -/
def MV_DST_HI (i : Nat) : Nat := 0x500c + 128 * i
/-- MV_COUNT, 15_bulk_mover R521. -/
def MV_COUNT (i : Nat) : Nat := 0x5010 + 128 * i
/-- MV_SPACE, 15_bulk_mover R521. -/
def MV_SPACE (i : Nat) : Nat := 0x5014 + 128 * i
/-- MV_CTL, 15_bulk_mover R521. -/
def MV_CTL (i : Nat) : Nat := 0x5018 + 128 * i
/-- MV_RES_ADDR_LO, 15_bulk_mover R521. -/
def MV_RES_ADDR_LO (i : Nat) : Nat := 0x501c + 128 * i
/-- MV_RES_ADDR_HI, 15_bulk_mover R521. -/
def MV_RES_ADDR_HI (i : Nat) : Nat := 0x5020 + 128 * i
/-- MV_CFG, 15_bulk_mover R521. -/
def MV_CFG (i : Nat) : Nat := 0x5024 + 128 * i
/-- MV_STATUS, 15_bulk_mover R521. -/
def MV_STATUS (i : Nat) : Nat := 0x5028 + 128 * i
/-- MV_REMAIN, 15_bulk_mover R521. -/
def MV_REMAIN (i : Nat) : Nat := 0x502c + 128 * i
/-- MV_RESULT, 15_bulk_mover R521. -/
def MV_RESULT (i : Nat) : Nat := 0x5030 + 128 * i
/-- MV_CMD, 15_bulk_mover R521. -/
def MV_CMD (i : Nat) : Nat := 0x5034 + 128 * i
/-- MV_DISCARDS, 15_bulk_mover R521. -/
def MV_DISCARDS (i : Nat) : Nat := 0x5038 + 128 * i
/-- MV_FAULT_LO, 15_bulk_mover R521. -/
def MV_FAULT_LO (i : Nat) : Nat := 0x503c + 128 * i
/-- MV_FAULT_HI, 15_bulk_mover R521. -/
def MV_FAULT_HI (i : Nat) : Nat := 0x5040 + 128 * i
/-- HL_EVR_CTL, 11_completions_events R408. -/
def HL_EVR_CTL (i : Nat) : Nat := 0x6000 + 32 * i
/-- HL_EVR_START, 11_completions_events R408. -/
def HL_EVR_START (i : Nat) : Nat := 0x6004 + 32 * i
/-- HL_EVR_BASE_LO, 11_completions_events R408. -/
def HL_EVR_BASE_LO (i : Nat) : Nat := 0x6008 + 32 * i
/-- HL_EVR_BASE_HI, 11_completions_events R408. -/
def HL_EVR_BASE_HI (i : Nat) : Nat := 0x600c + 32 * i
/-- HL_EVR_PROD, 11_completions_events R408. -/
def HL_EVR_PROD (i : Nat) : Nat := 0x6010 + 32 * i
/-- HL_EVR_CONS, 11_completions_events R408. -/
def HL_EVR_CONS (i : Nat) : Nat := 0x6014 + 32 * i
/-- HL_EVR_MOD, 11_completions_events R408. -/
def HL_EVR_MOD (i : Nat) : Nat := 0x6018 + 32 * i
/-- HL_EVR_STAT, 11_completions_events R408. -/
def HL_EVR_STAT (i : Nat) : Nat := 0x601c + 32 * i
/-- 11_completions_events R408. -/
def HL_VEC_MASK_LO : Nat := 0x6400
/-- 11_completions_events R408. -/
def HL_VEC_MASK_HI : Nat := 0x6404
/-- 11_completions_events R408. -/
def HL_VEC_PEND_LO : Nat := 0x6408
/-- 11_completions_events R408. -/
def HL_VEC_PEND_HI : Nat := 0x640c
/-- HL_EVSRC, 11_completions_events R408. -/
def HL_EVSRC (i : Nat) : Nat := 0x6800 + 4 * i
/-- 18_interfaces R594. -/
def HL_HP_CFG : Nat := 0x7000
/-- 18_interfaces R594. -/
def HL_HP_STATUS : Nat := 0x7004
/-- 18_interfaces R594. -/
def HL_HP_WATCH : Nat := 0x7008
/-- 16_fallow_handover R551. -/
def HL_FM_STATUS : Nat := 0x8000
/-- 16_fallow_handover R551. -/
def HL_FM_HO : Nat := 0x8004
/-- 16_fallow_handover R551. -/
def HL_FM_HO_WINDOW : Nat := 0x8008
/-- 16_fallow_handover R551. -/
def HL_FM_WEDGE_CFG : Nat := 0x800c
/-- 16_fallow_handover R551. -/
def HL_FM_WEDGED : Nat := 0x8010
/-- 16_fallow_handover R551. -/
def HL_FM_WEAR_CFG : Nat := 0x8014
/-- HL_SNS_TEMP, 17_management R582. -/
def HL_SNS_TEMP (i : Nat) : Nat := 0x8400 + 4 * i
/-- HL_SNS_VOLT, 17_management R582. -/
def HL_SNS_VOLT (i : Nat) : Nat := 0x8480 + 4 * i
/-- HL_SNS_AGE, 17_management R582. -/
def HL_SNS_AGE (i : Nat) : Nat := 0x8580 + 4 * i
/-- 17_management R582. -/
def HL_SNS_TEMP_LIM : Nat := 0x8700
/-- 17_management R582. -/
def HL_SNS_VOLT_LIM : Nat := 0x8704
/-- 17_management R582. -/
def HL_SNS_VNOM : Nat := 0x8708
/-- 17_management R582. -/
def HL_SNS_AGE_LIM : Nat := 0x870c
/-- 17_management R582. -/
def HL_SNS_ALARM_T : Nat := 0x8710
/-- 17_management R582. -/
def HL_SNS_ALARM_V_LO : Nat := 0x8714
/-- 17_management R582. -/
def HL_SNS_ALARM_V_HI : Nat := 0x8718
/-- 17_management R582. -/
def HL_SNS_ALARM_A_LO : Nat := 0x871c
/-- 17_management R582. -/
def HL_SNS_ALARM_A_HI : Nat := 0x8720
/-- 17_management R658. -/
def HL_MB_CMD_CTL : Nat := 0x9000
/-- 17_management R658. -/
def HL_MB_CMD_BASE_LO : Nat := 0x9004
/-- 17_management R658. -/
def HL_MB_CMD_BASE_HI : Nat := 0x9008
/-- 17_management R658. -/
def HL_MB_CMD_TAIL : Nat := 0x900c
/-- 17_management R658. -/
def HL_MB_CMD_HEAD : Nat := 0x9010
/-- 17_management R658. -/
def HL_MB_CMD_START : Nat := 0x9014
/-- 17_management R658. -/
def HL_MB_RSP_CTL : Nat := 0x9020
/-- 17_management R658. -/
def HL_MB_RSP_BASE_LO : Nat := 0x9024
/-- 17_management R658. -/
def HL_MB_RSP_BASE_HI : Nat := 0x9028
/-- 17_management R658. -/
def HL_MB_RSP_PROD : Nat := 0x902c
/-- 17_management R658. -/
def HL_MB_RSP_CONS : Nat := 0x9030
/-- 17_management R658. -/
def HL_MB_RSP_START : Nat := 0x9034
/-- 17_management R658. -/
def HL_MB_COPY_CTL : Nat := 0x9040
/-- 17_management R658. -/
def HL_MB_COPY_BASE_LO : Nat := 0x9044
/-- 17_management R658. -/
def HL_MB_COPY_BASE_HI : Nat := 0x9048
/-- 17_management R658. -/
def HL_MB_COPY_PROD : Nat := 0x904c
/-- 17_management R658. -/
def HL_MB_COPY_CONS : Nat := 0x9050
/-- 17_management R658. -/
def HL_MB_COPY_START : Nat := 0x9054
/-- 17_management R658. -/
def HL_FW_STATUS : Nat := 0x9060
/-- 17_management R658. -/
def HL_FW_VERSION : Nat := 0x9064
/-- 17_management R658. -/
def HL_LOG_CFG : Nat := 0x9100
/-- 17_management R658. -/
def HL_LOG_MIRROR_LO : Nat := 0x9104
/-- 17_management R658. -/
def HL_LOG_MIRROR_HI : Nat := 0x9108
/-- 17_management R658. -/
def HL_LOG_SEQ : Nat := 0x910c
/-- 17_management R658. -/
def HL_LOG_CONS : Nat := 0x9110
/-- 17_management R658. -/
def HL_PM_CFG : Nat := 0x9180
/-- HL_PM_PREV15_START_LO, 17_management R658. -/
def HL_PM_PREV15_START_LO (i : Nat) : Nat := 0x9400 + 128 * i
/-- HL_PM_PREV15_ES, 17_management R658. -/
def HL_PM_PREV15_ES (i : Nat) : Nat := 0x9404 + 128 * i
/-- HL_PM_PREV15_SES, 17_management R658. -/
def HL_PM_PREV15_SES (i : Nat) : Nat := 0x9408 + 128 * i
/-- HL_PM_PREV15_UAS, 17_management R658. -/
def HL_PM_PREV15_UAS (i : Nat) : Nat := 0x940c + 128 * i
/-- HL_PM_PREV15_NMS, 17_management R658. -/
def HL_PM_PREV15_NMS (i : Nat) : Nat := 0x9410 + 128 * i
/-- HL_PM_PREV15_FLAGS, 17_management R658. -/
def HL_PM_PREV15_FLAGS (i : Nat) : Nat := 0x9414 + 128 * i
/-- HL_PM_PREV24_START_LO, 17_management R658. -/
def HL_PM_PREV24_START_LO (i : Nat) : Nat := 0x9420 + 128 * i
/-- HL_PM_PREV24_ES, 17_management R658. -/
def HL_PM_PREV24_ES (i : Nat) : Nat := 0x9424 + 128 * i
/-- HL_PM_PREV24_SES, 17_management R658. -/
def HL_PM_PREV24_SES (i : Nat) : Nat := 0x9428 + 128 * i
/-- HL_PM_PREV24_UAS, 17_management R658. -/
def HL_PM_PREV24_UAS (i : Nat) : Nat := 0x942c + 128 * i
/-- HL_PM_PREV24_NMS, 17_management R658. -/
def HL_PM_PREV24_NMS (i : Nat) : Nat := 0x9430 + 128 * i
/-- HL_PM_PREV24_FLAGS, 17_management R658. -/
def HL_PM_PREV24_FLAGS (i : Nat) : Nat := 0x9434 + 128 * i
/-- 19_register_index R641. -/
def HL_IW_TREE_SEL : Nat := 0x10000
/-- 19_register_index R641. -/
def HL_IW_CTX_SEL : Nat := 0x10004
/-- 19_register_index R641. -/
def HL_IW_STATUS : Nat := 0x10008

end Reg

namespace F

def CH_MODE_MODE : Field := ⟨0, 4⟩
def CH_MODE_HO_ROLE : Field := ⟨4, 2⟩
def CH_MODE_FALLOW : Field := ⟨6, 1⟩
def CH_MODE_FAST : Field := ⟨7, 1⟩
def CH_MODE_HEARTBEAT : Field := ⟨24, 8⟩
def CH_MODE_CTL_ENABLE : Field := ⟨0, 1⟩
def CH_MODE_CTL_FAST_OK : Field := ⟨1, 1⟩
def CH_HALT_CAUSE_CAUSE : Field := ⟨0, 8⟩
def CH_HALT_CAUSE_SEEN : Field := ⟨8, 7⟩
def CH_HALT_CAUSE_DETAIL : Field := ⟨16, 16⟩
def CH_RESET_GO : Field := ⟨0, 1⟩
def CH_RESET_GUARD : Field := ⟨16, 16⟩
def CH_DS_CFG_MODE : Field := ⟨0, 3⟩
def CH_DS_SYNC_CONFIRM : Field := ⟨0, 4⟩
def CH_DS_SYNC_HDR_LOSS : Field := ⟨4, 4⟩
def CH_DS_STATUS_GUARD : Field := ⟨0, 2⟩
def CH_DS_STATUS_COUNT : Field := ⟨2, 4⟩
def CH_DS_STATUS_HDR_RUN : Field := ⟨6, 4⟩
def CH_DS_STATUS_FRAMER_SYNC : Field := ⟨10, 1⟩
def CH_DS_STATUS_BASE : Field := ⟨11, 1⟩
def CH_DS_STATUS_EPOCH : Field := ⟨16, 16⟩
def CH_DS_SFC_HI_SFC_HI : Field := ⟨0, 19⟩
def CH_RX_CFG_KEEP_BAD : Field := ⟨0, 1⟩
def CH_RX_CFG_STRIP_FCS : Field := ⟨1, 1⟩
def CH_RX_CFG_ERR_QUEUE : Field := ⟨8, 8⟩
def CH_RX_CFG_MAX_LEN : Field := ⟨16, 14⟩
def CH_RX_REASM_AGE : Field := ⟨0, 8⟩
def CH_TS_DS_LINE_PSB_LEN : Field := ⟨0, 8⟩
def CH_TS_DS_LINE_FEC_ON : Field := ⟨8, 1⟩
def CH_TS_DS_FEC_K : Field := ⟨0, 12⟩
def CH_TS_DS_FEC_N : Field := ⟨16, 12⟩
def CH_TS_DS_BIT_BIT_TIME : Field := ⟨0, 24⟩
def CH_DS_BCAST_PORT : Field := ⟨0, 16⟩
def CH_DS_BCAST_CTX : Field := ⟨16, 14⟩
def CH_DS_BCAST_VALID : Field := ⟨31, 1⟩
def CH_US_CFG_LEAD_US : Field := ⟨0, 8⟩
def CH_US_RSP_RSP_NS : Field := ⟨0, 20⟩
def CH_US_LASER_ON_NS : Field := ⟨0, 12⟩
def CH_US_LASER_OFF_NS : Field := ⟨16, 12⟩
def CH_US_GUARD_HALT_ON_TRIP : Field := ⟨0, 1⟩
def CH_US_GUARD_SLACK : Field := ⟨4, 4⟩
def CH_US_GUARD_TRIPPED : Field := ⟨31, 1⟩
def CH_US_BIT_BIT_TIME : Field := ⟨0, 24⟩
def CH_US_FEC_K : Field := ⟨0, 12⟩
def CH_US_FEC_N : Field := ⟨16, 12⟩
def CH_US_PAUSE_CFG_EN_PAUSE : Field := ⟨0, 1⟩
def CH_US_PAUSE_CFG_EN_PFC : Field := ⟨1, 1⟩
def CH_US_PAUSE_CFG_DELIVER : Field := ⟨2, 1⟩
def CH_US_PAUSE_MAC_HI_MAC_HI : Field := ⟨0, 16⟩
def CH_US_PAUSE_STATUS_PAUSED : Field := ⟨0, 1⟩
def CH_US_PAUSE_STATUS_PFC_PAUSED : Field := ⟨8, 8⟩
def CH_US_PROFILE_PSB_LEN : Field := ⟨0, 12⟩
def CH_US_PROFILE_FEC_ON : Field := ⟨12, 1⟩
def CH_US_PROFILE_VALID : Field := ⟨31, 1⟩
def CH_US_SLOT_ALLOC_ID : Field := ⟨0, 14⟩
def CH_US_SLOT_VALID : Field := ⟨16, 1⟩
def CH_US_SLOT_SCHED : Field := ⟨17, 1⟩
def CH_ACT_STATUS_STATE : Field := ⟨0, 4⟩
def CH_ACT_STATUS_ID_VALID : Field := ⟨4, 1⟩
def CH_ACT_STATUS_EQD_VALID : Field := ⟨5, 1⟩
def CH_ACT_STATUS_SN_ARMED : Field := ⟨6, 1⟩
def CH_ACT_STATUS_TERMINAL_ID : Field := ⟨16, 10⟩
def CH_ACT_SN_CFG_DELAY_MAX : Field := ⟨0, 16⟩
def CH_ACT_CFG_MGMT_CTX : Field := ⟨0, 14⟩
def CH_ACT_TIMERS_TO1 : Field := ⟨0, 16⟩
def CH_ACT_TIMERS_TO2 : Field := ⟨16, 16⟩
def CH_ACT_FAST_HOLD : Field := ⟨0, 16⟩
def CH_ACT_FAST_WAIT : Field := ⟨16, 8⟩
def CH_PARSE_CFG_MPLS_IP : Field := ⟨0, 1⟩
def CH_PARSE_CFG_VXLAN_EN : Field := ⟨1, 1⟩
def CH_PARSE_CFG_GRE_EN : Field := ⟨2, 1⟩
def CH_PARSE_CFG_GTPU_EN : Field := ⟨3, 1⟩
def CH_PARSE_CFG_INNER : Field := ⟨4, 1⟩
def CH_PARSE_TPID_TPID_X : Field := ⟨0, 16⟩
def CH_PARSE_UDP_VXLAN_UDP : Field := ⟨0, 16⟩
def CH_PARSE_UDP_GTPU_UDP : Field := ⟨16, 16⟩
def CH_PARSE_MALFORMED_DS_ACTION : Field := ⟨0, 2⟩
def CH_PARSE_MALFORMED_US_ACTION : Field := ⟨2, 2⟩
def CH_PARSE_MALFORMED_QUEUE : Field := ⟨8, 8⟩
def CH_FRAG_CFG_EN : Field := ⟨0, 1⟩
def CH_FRAG_CFG_LAST_AGE : Field := ⟨8, 8⟩
def CH_FRAG_CFG_AGE : Field := ⟨16, 11⟩
def CH_FRAG_STATUS_VALID_COUNT : Field := ⟨0, 11⟩
def CH_CLS_CFG_EXC_QUEUE : Field := ⟨0, 8⟩
def CH_CLS_CFG_TKEY_COMMIT : Field := ⟨16, 1⟩
def CH_KEY_SEL_DS_PROF : Field := ⟨0, 24⟩
def CH_KEY_SEL_US_PROF : Field := ⟨0, 24⟩
def CH_TREE_SEL_DS_TREE : Field := ⟨0, 24⟩
def CH_TREE_SEL_US_TREE : Field := ⟨0, 24⟩
def CH_CLS_MIRROR_QUEUE : Field := ⟨0, 8⟩
def CH_CLS_MIRROR_LANE : Field := ⟨8, 4⟩
def CH_CLS_MIRROR_FP : Field := ⟨12, 1⟩
def CH_CLS_MIRROR_TRUNC : Field := ⟨13, 1⟩
def CH_CLS_MIRROR_VALID : Field := ⟨31, 1⟩
def CH_TREE_ROOT_ROOT : Field := ⟨0, 16⟩
def CH_TREE_ROOT_ROOT_IS_RULE : Field := ⟨16, 1⟩
def CH_TREE_ROOT_DEFAULT_RULE : Field := ⟨17, 13⟩
def CH_TREE_ROOT_VALID : Field := ⟨31, 1⟩
def CH_SHEAF_CTL_CMD : Field := ⟨0, 4⟩
def CH_SHEAF_CTL_SLOT : Field := ⟨4, 2⟩
def CH_SHEAF_STATUS_CUR : Field := ⟨0, 2⟩
def CH_SHEAF_STATUS_CUR_VALID : Field := ⟨2, 1⟩
def CH_SHEAF_STATUS_STATE0 : Field := ⟨4, 3⟩
def CH_SHEAF_STATUS_STATE1 : Field := ⟨8, 3⟩
def CH_SHEAF_STATUS_STATE2 : Field := ⟨12, 3⟩
def CH_SHEAF_STATUS_STATE3 : Field := ⟨16, 3⟩
def CH_SHEAF_STATUS_RESULT : Field := ⟨20, 4⟩
def CH_SHEAF_STATUS_RES_SLOT : Field := ⟨24, 2⟩
def CH_SHEAF_STATUS_RES_ARM : Field := ⟨26, 1⟩
def CH_SHEAF_STATUS_BUSY : Field := ⟨31, 1⟩
def CH_SHEAF_CHECK_TREE : Field := ⟨0, 3⟩
def CH_SHEAF_CHECK_FAULT : Field := ⟨4, 4⟩
def CH_SHEAF_ARM_SLOT : Field := ⟨0, 2⟩
def CH_SHEAF_ARM_VALID : Field := ⟨31, 1⟩
def CH_SHEAF_TAG_TAG : Field := ⟨0, 16⟩
def CH_SHEAF_INFLIGHT_COUNT : Field := ⟨0, 16⟩
def CH_SHEAF_PINS_COUNT : Field := ⟨0, 15⟩
def CH_SHEAF_FRAGS_COUNT : Field := ⟨0, 11⟩
def CH_KEY_EXT_ANCHOR : Field := ⟨0, 4⟩
def CH_KEY_EXT_SRC_OFF : Field := ⟨4, 8⟩
def CH_KEY_EXT_LEN : Field := ⟨12, 4⟩
def CH_KEY_EXT_DST_OFF : Field := ⟨16, 6⟩
def CH_IND_ENTRY_LO : Field := ⟨0, 16⟩
def CH_IND_ENTRY_HI : Field := ⟨16, 16⟩
def CH_GR_CFG_US_FLOOR : Field := ⟨0, 14⟩
def CH_GR_STATUS_FREE_COUNT : Field := ⟨0, 14⟩
def CH_GR_STATUS_MODE : Field := ⟨14, 2⟩
def CH_GR_STATUS_RESERVED : Field := ⟨16, 14⟩
def CH_GR_GLEAN_GO : Field := ⟨0, 1⟩
def CH_GR_GLEAN_TO_BITMAP : Field := ⟨1, 1⟩
def CH_GR_GLEAN_POS : Field := ⟨16, 14⟩
def CH_GR_GLEAN_ACTIVE : Field := ⟨31, 1⟩
def CH_GR_BANKS_FB0_BANK : Field := ⟨0, 5⟩
def CH_GR_BANKS_FB0_VALID : Field := ⟨5, 1⟩
def CH_GR_BANKS_FB0_RETIRED : Field := ⟨6, 1⟩
def CH_GR_BANKS_FB1_BANK : Field := ⟨8, 5⟩
def CH_GR_BANKS_FB1_VALID : Field := ⟨13, 1⟩
def CH_GR_BANKS_FB1_RETIRED : Field := ⟨14, 1⟩
def CH_GR_MIGRATE_BANK : Field := ⟨0, 5⟩
def CH_GR_MIGRATE_TARGET : Field := ⟨5, 1⟩
def CH_GR_MIGRATE_PHASE : Field := ⟨6, 2⟩
def CH_GR_MIGRATE_ROW : Field := ⟨8, 11⟩
def CH_GR_MIGRATE_BUSY : Field := ⟨31, 1⟩
def CH_GR_FAULT_CELL : Field := ⟨0, 14⟩
def CH_GR_FAULT_KIND : Field := ⟨14, 2⟩
def CH_GR_FAULT_TAG : Field := ⟨16, 4⟩
def CH_GR_FAULT_OWNER : Field := ⟨20, 4⟩
def CH_GR_ERR_CE : Field := ⟨0, 24⟩
def CH_GR_ERR_UE : Field := ⟨24, 8⟩
def CH_RXQ_CTL_EN : Field := ⟨0, 1⟩
def CH_RXQ_CTL_SIZE_LOG2 : Field := ⟨4, 4⟩
def CH_RXQ_CTL_CRING : Field := ⟨8, 6⟩
def CH_RXQ_CTL_IDLE : Field := ⟨31, 1⟩
def CH_RXQ_BASE_LO_BASE_LO : Field := ⟨6, 26⟩
def CH_RXQ_STAT_LIST : Field := ⟨0, 5⟩
def CH_RXQ_STAT_WAITING : Field := ⟨16, 16⟩
def CH_TXQ_CTL_EN : Field := ⟨0, 1⟩
def CH_TXQ_CTL_SIZE_LOG2 : Field := ⟨4, 4⟩
def CH_TXQ_CTL_CRING : Field := ⟨8, 6⟩
def CH_TXQ_CTL_PRIO : Field := ⟨16, 3⟩
def CH_TXQ_CTL_WEIGHT : Field := ⟨24, 7⟩
def CH_TXQ_CTL_IDLE : Field := ⟨31, 1⟩
def CH_TXQ_BASE_LO_BASE_LO : Field := ⟨6, 26⟩
def CH_TXQ_MAP_SLOT : Field := ⟨0, 8⟩
def CH_TXQ_MAP_PORT : Field := ⟨16, 16⟩
def CH_TXQ_CTX_CTX : Field := ⟨0, 14⟩
def CH_CRING_CTL_EN : Field := ⟨0, 1⟩
def CH_CRING_CTL_LONG : Field := ⟨1, 1⟩
def CH_CRING_CTL_SIZE_LOG2 : Field := ⟨4, 4⟩
def CH_CRING_CTL_VECTOR : Field := ⟨8, 6⟩
def CH_CRING_CTL_NOTIFY : Field := ⟨14, 1⟩
def CH_CRING_CTL_ARMED : Field := ⟨15, 1⟩
def CH_CRING_CTL_IDLE : Field := ⟨31, 1⟩
def CH_CRING_BASE_LO_BASE_LO : Field := ⟨6, 26⟩
def CH_CRING_STAT_OWED : Field := ⟨0, 17⟩
def CH_CRING_STAT_STALLED : Field := ⟨31, 1⟩
def CH_DB_BASE_LO_VALID : Field := ⟨0, 1⟩
def CH_DB_BASE_LO_ADDR_LO : Field := ⟨12, 20⟩
def CH_DB_POLL_INTERVAL : Field := ⟨0, 14⟩
def CH_DB_POLL_WATCH : Field := ⟨31, 1⟩
def CH_DB_KICK_LINE : Field := ⟨0, 6⟩
def CH_RXQ_HOLD_HOLD_US : Field := ⟨0, 16⟩
def CH_RING_FAULT_QUEUE : Field := ⟨0, 9⟩
def CH_RING_FAULT_COND : Field := ⟨12, 4⟩
def CH_CPL_STATUS_HOLD_USED : Field := ⟨0, 9⟩
def CH_CPL_STATUS_HOLD_DEMAND : Field := ⟨16, 9⟩
def CH_TU_CTL_EN : Field := ⟨0, 1⟩
def CH_TU_STATUS_STATE : Field := ⟨0, 2⟩
def CH_TU_STATUS_STU_SOURCE : Field := ⟨2, 1⟩
def CH_TU_STATUS_LOCK_COUNT : Field := ⟨4, 7⟩
def CH_TU_STATUS_OUTLIERS : Field := ⟨12, 2⟩
def CH_TU_LIMITS_STEP_NS : Field := ⟨0, 16⟩
def CH_TU_LIMITS_UNLOCK_NS : Field := ⟨16, 8⟩
def CH_TU_LIMITS_HOLD_MAX : Field := ⟨24, 8⟩
def CH_TU_MSG_SFC_HI_SFC_HI : Field := ⟨0, 19⟩
def CH_TU_MSG_SEC_HI_SEC_HI : Field := ⟨0, 16⟩
def CH_TU_MSG_NS_NS : Field := ⟨0, 30⟩
def CH_TU_MSG_ARM_GO : Field := ⟨0, 1⟩
def CH_TU_MSG_ARM_PENDING : Field := ⟨31, 1⟩
def CH_TSQ_STATUS_COUNT : Field := ⟨0, 7⟩
def CH_TSQ_STATUS_OVF : Field := ⟨31, 1⟩
def CH_TSQ_HEAD_TAG : Field := ⟨0, 16⟩
def CH_TSQ_HEAD_QUEUE : Field := ⟨16, 8⟩
def CH_TSQ_HEAD_VALID : Field := ⟨31, 1⟩
def CH_TSQ_POP_GO : Field := ⟨0, 1⟩
def CH_PWR_STATUS_MODE : Field := ⟨0, 4⟩
def CH_PWR_STATUS_VARIANT : Field := ⟨4, 1⟩
def CH_PWR_STATUS_PHASE : Field := ⟨5, 3⟩
def CH_PWR_STATUS_PAD_HELD : Field := ⟨8, 1⟩
def CH_PWR_STATUS_BROWN_OUT : Field := ⟨9, 1⟩
def CH_PWR_STATUS_REG_LP : Field := ⟨10, 1⟩
def CH_PWR_STATUS_IDLE_EXPIRED : Field := ⟨11, 1⟩
def CH_PWR_STATUS_PERMIT : Field := ⟨12, 1⟩
def CH_PWR_CTL_AUTO_EN : Field := ⟨0, 1⟩
def CH_PWR_CTL_AUTO_VAR : Field := ⟨1, 1⟩
def CH_PWR_CTL_WAKE : Field := ⟨8, 1⟩
def CH_PWR_CTL_STOP : Field := ⟨9, 1⟩
def CH_IDLE_TIMER_IDLE_US : Field := ⟨0, 24⟩
def CH_STOP_TIMER_MAX_MS : Field := ⟨0, 16⟩
def CH_WAKE_CFG_TX_DB : Field := ⟨0, 1⟩
def CH_WAKE_CFG_FWI : Field := ⟨1, 1⟩
def CH_WAKE_CFG_SYNC_LOSS : Field := ⟨2, 1⟩
def CH_WAKE_CFG_PAT_EN : Field := ⟨16, 16⟩
def CH_WAKE_SRC_SRC : Field := ⟨0, 9⟩
def CH_WAKE_SRC_PATTERN : Field := ⟨16, 4⟩
def CH_STOP_REFUSER_ID : Field := ⟨0, 4⟩
def CH_STOP_REFUSER_VALID : Field := ⟨31, 1⟩
def CH_PAD_RELEASE_GO : Field := ⟨0, 1⟩
def CH_SEAL_FAIL_HI_FAIL_HI : Field := ⟨0, 18⟩
def CH_LANE_LANE : Field := ⟨0, 5⟩
def CH_LANE_CLAIM : Field := ⟨8, 1⟩
def CH_WAKE_PORT_PORT : Field := ⟨0, 16⟩
def CH_WAKE_PORT_WAKE_ANY : Field := ⟨16, 1⟩
def CH_WAKE_PORT_VALID : Field := ⟨31, 1⟩
def CH_WAKE_CRC_CRC : Field := ⟨0, 16⟩
def CH_DRILL_CMD_CMD : Field := ⟨0, 4⟩
def CH_DRILL_CMD_ENTRY : Field := ⟨8, 8⟩
def CH_DRILL_CMD_ERR : Field := ⟨30, 1⟩
def CH_DRILL_S_FRAC_TIME_FRAC : Field := ⟨0, 16⟩
def CH_DRILL_S_FRAC_PERIOD_FRAC : Field := ⟨16, 16⟩
def CH_DRILL_S_ACT_ACTION : Field := ⟨0, 4⟩
def CH_DRILL_S_ACT_LATE_OK : Field := ⟨4, 1⟩
def CH_DRILL_S_ACT_TBASE : Field := ⟨5, 1⟩
def CH_DRILL_S_ACT_EN : Field := ⟨6, 1⟩
def CH_DRILL_S_ACT_ARG : Field := ⟨16, 16⟩
def CH_DRILL_S_COUNT_COUNT : Field := ⟨0, 16⟩
def CH_DRILL_S_COUNT_REMAIN : Field := ⟨16, 16⟩
def CH_DRILL_S_STATUS_STATE : Field := ⟨0, 2⟩
def CH_DRILL_S_STATUS_RESULT : Field := ⟨2, 3⟩
def CH_DRILL_S_STATUS_FIRED : Field := ⟨16, 16⟩
def CH_DRILL_CFG_STOP_GUARD_US : Field := ⟨0, 16⟩
def CH_PM_CUR15_ES_COUNT : Field := ⟨0, 17⟩
def CH_PM_CUR15_SES_COUNT : Field := ⟨0, 17⟩
def CH_PM_CUR15_UAS_COUNT : Field := ⟨0, 17⟩
def CH_PM_CUR15_NMS_COUNT : Field := ⟨0, 17⟩
def CH_PM_CUR15_FLAGS_INCOMPLETE : Field := ⟨0, 1⟩
def CH_PM_CUR15_FLAGS_SUSPECT : Field := ⟨1, 1⟩
def CH_PM_CUR24_ES_COUNT : Field := ⟨0, 17⟩
def CH_PM_CUR24_SES_COUNT : Field := ⟨0, 17⟩
def CH_PM_CUR24_UAS_COUNT : Field := ⟨0, 17⟩
def CH_PM_CUR24_NMS_COUNT : Field := ⟨0, 17⟩
def CH_PM_CUR24_FLAGS_INCOMPLETE : Field := ⟨0, 1⟩
def CH_PM_CUR24_FLAGS_SUSPECT : Field := ⟨1, 1⟩
def CH_PM_LAST15_ES_COUNT : Field := ⟨0, 17⟩
def CH_PM_LAST15_SES_COUNT : Field := ⟨0, 17⟩
def CH_PM_LAST15_UAS_COUNT : Field := ⟨0, 17⟩
def CH_PM_LAST15_NMS_COUNT : Field := ⟨0, 17⟩
def CH_PM_LAST15_FLAGS_INCOMPLETE : Field := ⟨0, 1⟩
def CH_PM_LAST15_FLAGS_SUSPECT : Field := ⟨1, 1⟩
def CH_PM_LAST24_ES_COUNT : Field := ⟨0, 17⟩
def CH_PM_LAST24_SES_COUNT : Field := ⟨0, 17⟩
def CH_PM_LAST24_UAS_COUNT : Field := ⟨0, 17⟩
def CH_PM_LAST24_NMS_COUNT : Field := ⟨0, 17⟩
def CH_PM_LAST24_FLAGS_INCOMPLETE : Field := ⟨0, 1⟩
def CH_PM_LAST24_FLAGS_SUSPECT : Field := ⟨1, 1⟩
def CH_PM_STATUS_UNAVAIL : Field := ⟨0, 1⟩
def CH_PM_STATUS_RUN : Field := ⟨1, 4⟩
def CH_PM_LAST_SEC_ERR_LF : Field := ⟨0, 14⟩
def CH_PM_LAST_SEC_SYNC_LOSS : Field := ⟨14, 1⟩
def CH_PORT_CFG_FP_EN : Field := ⟨0, 1⟩
def CH_PORT_STATUS_XOFF : Field := ⟨0, 16⟩
def CH_PORT_STATUS_SD : Field := ⟨16, 1⟩
def CH_PORT_STATUS_FPI_READY : Field := ⟨17, 1⟩
def CH_PORT_STATUS_CP_LATE : Field := ⟨18, 1⟩
def CH_FB_TREE_BANK : Field := ⟨0, 4⟩
def CH_FB_TREE_VALID : Field := ⟨4, 1⟩
def CH_FB_TREE_RETIRED : Field := ⟨5, 1⟩
def CH_FB_CTX_BANK : Field := ⟨0, 4⟩
def CH_FB_CTX_VALID : Field := ⟨4, 1⟩
def CH_FB_CTX_RETIRED : Field := ⟨5, 1⟩
def CH_FB_MIGRATE_BANK : Field := ⟨0, 4⟩
def CH_FB_MIGRATE_STORE : Field := ⟨4, 1⟩
def CH_FB_MIGRATE_PHASE : Field := ⟨8, 2⟩
def CH_FB_MIGRATE_ROW : Field := ⟨10, 13⟩
def CH_FB_MIGRATE_BUSY : Field := ⟨31, 1⟩
def CH_FB_ERR_CE : Field := ⟨0, 24⟩
def CH_FB_ERR_UE : Field := ⟨24, 8⟩
def HL_CFG_ID_MEMBER : Field := ⟨0, 8⟩
def HL_CFG_ID_CHANNELS : Field := ⟨8, 5⟩
def HL_CFG_ID_FALLOW : Field := ⟨13, 1⟩
def HL_CFG_ID_RATE_MAX : Field := ⟨16, 2⟩
def HL_CFG_ID_HP_LANES : Field := ⟨18, 2⟩
def HL_CFG_ID_STEP : Field := ⟨24, 8⟩
def HL_CFG_SIZES_BUF : Field := ⟨0, 4⟩
def HL_CFG_SIZES_TREE : Field := ⟨4, 4⟩
def HL_CFG_SIZES_CTX_LOG2 : Field := ⟨8, 4⟩
def HL_CFG_DESIGN_DESIGN : Field := ⟨0, 16⟩
def HL_CFG_DESIGN_FAMILY : Field := ⟨16, 16⟩
def HL_RST_DEVICE_GO : Field := ⟨0, 1⟩
def HL_RST_DEVICE_GUARD : Field := ⟨16, 16⟩
def HL_RST_STATUS_CAUSE : Field := ⟨0, 2⟩
def HL_RST_CHAN_LO_REQ : Field := ⟨0, 17⟩
def HL_RST_CHAN_HI_DONE : Field := ⟨0, 17⟩
def HL_RST_RESETS_COUNT : Field := ⟨0, 16⟩
def HL_RST_HALTS_COUNT : Field := ⟨0, 16⟩
def HL_RST_HALTS7_COUNT : Field := ⟨0, 16⟩
def HL_PWR_BUDGET_TOKENS : Field := ⟨0, 10⟩
def HL_PWR_STATUS_FLOORS : Field := ⟨0, 10⟩
def HL_PWR_STATUS_GRANTED : Field := ⟨16, 10⟩
def HL_PWR_STATUS_OVER : Field := ⟨31, 1⟩
def HL_PWR_GRANT_TOKENS : Field := ⟨0, 6⟩
def HL_DVFS_REQ_ISLAND : Field := ⟨0, 1⟩
def HL_DVFS_REQ_KIND : Field := ⟨1, 1⟩
def HL_DVFS_REQ_INDEX : Field := ⟨2, 2⟩
def HL_DVFS_REQ_GO : Field := ⟨31, 1⟩
def HL_DVFS_STATUS_HP_F : Field := ⟨0, 2⟩
def HL_DVFS_STATUS_HP_V : Field := ⟨2, 2⟩
def HL_DVFS_STATUS_MG_F : Field := ⟨4, 2⟩
def HL_DVFS_STATUS_MG_V : Field := ⟨6, 2⟩
def HL_DVFS_STATUS_LAST_REJECT : Field := ⟨8, 4⟩
def HL_DVFS_STATUS_BUSY : Field := ⟨31, 1⟩
def HL_STU_CTL_SRC : Field := ⟨0, 2⟩
def HL_STU_CTL_CHAN : Field := ⟨8, 5⟩
def HL_STU_CTL_PPS_OUT_EN : Field := ⟨16, 1⟩
def HL_STU_CTL_TOD_OUT_EN : Field := ⟨17, 1⟩
def HL_STU_STATUS_STATE : Field := ⟨0, 2⟩
def HL_STU_STATUS_SRC_VALID : Field := ⟨2, 1⟩
def HL_STU_STATUS_LOCK_COUNT : Field := ⟨4, 7⟩
def HL_STU_STATUS_OUTLIERS : Field := ⟨12, 2⟩
def HL_STU_LIMITS_STEP_NS : Field := ⟨0, 16⟩
def HL_STU_LIMITS_UNLOCK_NS : Field := ⟨16, 8⟩
def HL_STU_LIMITS_HOLD_MAX : Field := ⟨24, 8⟩
def HL_STU_SNAP_CTL_GO : Field := ⟨0, 1⟩
def HL_STU_SNAP_SEC_HI_SEC_HI : Field := ⟨0, 16⟩
def HL_STU_SNAP_NS_NS : Field := ⟨0, 30⟩
def HL_STU_SNAP_FRAC_CAL_FRAC : Field := ⟨0, 16⟩
def HL_STU_SNAP_FRAC_TICK_FRAC : Field := ⟨16, 16⟩
def HL_STU_SET_SEC_HI_SEC_HI : Field := ⟨0, 16⟩
def HL_STU_SET_NS_NS : Field := ⟨0, 30⟩
def HL_STU_ADJ_CTL_ADJ : Field := ⟨0, 1⟩
def HL_STU_ADJ_CTL_SET : Field := ⟨1, 1⟩
def HL_STU_PPS_SEC_HI_SEC_HI : Field := ⟨0, 16⟩
def HL_STU_PPS_SEC_HI_VALID : Field := ⟨31, 1⟩
def HL_STU_PPS_OUT_WIDTH_MS : Field := ⟨0, 8⟩
def HL_STU_DEVID_DEVID : Field := ⟨0, 16⟩
def HL_DRILL_CMD_CMD : Field := ⟨0, 4⟩
def HL_DRILL_CMD_ENTRY : Field := ⟨8, 8⟩
def HL_DRILL_CMD_ERR : Field := ⟨30, 1⟩
def HL_DRILL_S_FRAC_TIME_FRAC : Field := ⟨0, 16⟩
def HL_DRILL_S_FRAC_PERIOD_FRAC : Field := ⟨16, 16⟩
def HL_DRILL_S_ACT_ACTION : Field := ⟨0, 4⟩
def HL_DRILL_S_ACT_LATE_OK : Field := ⟨4, 1⟩
def HL_DRILL_S_ACT_TBASE : Field := ⟨5, 1⟩
def HL_DRILL_S_ACT_EN : Field := ⟨6, 1⟩
def HL_DRILL_S_ACT_ARG : Field := ⟨16, 16⟩
def HL_DRILL_S_COUNT_COUNT : Field := ⟨0, 16⟩
def HL_DRILL_S_COUNT_REMAIN : Field := ⟨16, 16⟩
def HL_DRILL_S_STATUS_STATE : Field := ⟨0, 2⟩
def HL_DRILL_S_STATUS_RESULT : Field := ⟨2, 3⟩
def HL_DRILL_S_STATUS_FIRED : Field := ⟨16, 16⟩
def HL_DRILL_TRIG_OFS : Field := ⟨0, 8⟩
def HL_DRILL_TRIG_INVERT : Field := ⟨8, 1⟩
def HL_DRILL_CAP_CTL_ARM : Field := ⟨0, 1⟩
def HL_DRILL_CAP_CTL_EDGE : Field := ⟨1, 2⟩
def HL_DRILL_CAP_CTL_CONT : Field := ⟨3, 1⟩
def HL_DRILL_CAP_CTL_TIMEOUT : Field := ⟨4, 1⟩
def HL_DRILL_CAP_CTL_WINDOW_US : Field := ⟨16, 16⟩
def MV_SPACE_SRC_SPACE : Field := ⟨0, 4⟩
def MV_SPACE_SRC_CHAN : Field := ⟨4, 5⟩
def MV_SPACE_DST_SPACE : Field := ⟨16, 4⟩
def MV_SPACE_DST_CHAN : Field := ⟨20, 5⟩
def MV_CTL_GO : Field := ⟨0, 1⟩
def MV_CTL_BARRIER : Field := ⟨1, 1⟩
def MV_CTL_KIND : Field := ⟨2, 2⟩
def MV_CTL_RESULT_WR : Field := ⟨4, 1⟩
def MV_CTL_CONT : Field := ⟨5, 1⟩
def MV_CTL_IMPORT : Field := ⟨6, 1⟩
def MV_RES_ADDR_LO_ADDR_LO : Field := ⟨4, 28⟩
def MV_CFG_RETRY : Field := ⟨0, 3⟩
def MV_STATUS_STATE : Field := ⟨0, 2⟩
def MV_STATUS_PENDING : Field := ⟨2, 1⟩
def MV_STATUS_OVERLAP_DESC : Field := ⟨3, 1⟩
def MV_STATUS_REFUSE : Field := ⟨4, 4⟩
def MV_STATUS_HALT_CODE : Field := ⟨8, 8⟩
def MV_STATUS_RETRIES : Field := ⟨16, 3⟩
def MV_CMD_CLEAR : Field := ⟨0, 1⟩
def MV_CMD_ABORT : Field := ⟨1, 1⟩
def HL_EVR_CTL_EN : Field := ⟨0, 1⟩
def HL_EVR_CTL_SIZE_LOG2 : Field := ⟨4, 4⟩
def HL_EVR_CTL_VECTOR : Field := ⟨8, 6⟩
def HL_EVR_CTL_NOTIFY : Field := ⟨14, 1⟩
def HL_EVR_CTL_IDLE : Field := ⟨31, 1⟩
def HL_EVR_BASE_LO_BASE_LO : Field := ⟨6, 26⟩
def HL_EVR_MOD_HOLDOFF : Field := ⟨0, 16⟩
def HL_EVR_STAT_DEFERRED : Field := ⟨0, 10⟩
def HL_EVSRC_RING : Field := ⟨0, 4⟩
def HL_EVSRC_EN : Field := ⟨4, 1⟩
def HL_EVSRC_PENDING : Field := ⟨31, 1⟩
def HL_HP_CFG_RD_TIMEOUT_US : Field := ⟨0, 16⟩
def HL_HP_STATUS_LAST_CODE : Field := ⟨0, 8⟩
def HL_HP_STATUS_LAST_STREAM : Field := ⟨8, 5⟩
def HL_HP_STATUS_LAST_WRITE : Field := ⟨13, 1⟩
def HL_HP_STATUS_HL_FATAL : Field := ⟨31, 1⟩
def HL_HP_WATCH_COUNT : Field := ⟨0, 11⟩
def HL_FM_STATUS_FALLOW_CH : Field := ⟨0, 5⟩
def HL_FM_STATUS_FALLOW_VALID : Field := ⟨5, 1⟩
def HL_FM_STATUS_TESTED : Field := ⟨6, 1⟩
def HL_FM_STATUS_HO_PHASE : Field := ⟨8, 3⟩
def HL_FM_STATUS_SLOW : Field := ⟨11, 1⟩
def HL_FM_STATUS_HO_BUSY : Field := ⟨31, 1⟩
def HL_FM_HO_SRC : Field := ⟨0, 5⟩
def HL_FM_HO_TGT : Field := ⟨8, 5⟩
def HL_FM_HO_RESULT : Field := ⟨16, 4⟩
def HL_FM_HO_WINDOW_WINDOW_US : Field := ⟨0, 16⟩
def HL_FM_WEDGE_CFG_TIMEOUT_US : Field := ⟨0, 16⟩
def HL_FM_WEDGE_CFG_EN : Field := ⟨31, 1⟩
def HL_FM_WEDGED_WEDGED : Field := ⟨0, 17⟩
def HL_FM_WEAR_CFG_CE_LIMIT : Field := ⟨0, 16⟩
def HL_FM_WEAR_CFG_WINDOW_S : Field := ⟨16, 8⟩
def HL_FM_WEAR_CFG_AUTO : Field := ⟨31, 1⟩
def HL_SNS_TEMP_TEMP : Field := ⟨0, 16⟩
def HL_SNS_VOLT_MV : Field := ⟨0, 16⟩
def HL_SNS_AGE_DEGR : Field := ⟨0, 16⟩
def HL_SNS_TEMP_LIM_ALARM : Field := ⟨0, 16⟩
def HL_SNS_TEMP_LIM_HYST : Field := ⟨16, 16⟩
def HL_SNS_VOLT_LIM_LOW_PCT : Field := ⟨0, 8⟩
def HL_SNS_VOLT_LIM_HIGH_PCT : Field := ⟨8, 8⟩
def HL_SNS_VNOM_CH_MV : Field := ⟨0, 16⟩
def HL_SNS_VNOM_AON_MV : Field := ⟨16, 16⟩
def HL_SNS_AGE_LIM_ALARM : Field := ⟨0, 16⟩
def HL_SNS_ALARM_T_ALARM : Field := ⟨0, 21⟩
def HL_MB_CMD_CTL_EN : Field := ⟨0, 1⟩
def HL_MB_CMD_CTL_SIZE_LOG2 : Field := ⟨4, 4⟩
def HL_MB_RSP_CTL_EN : Field := ⟨0, 1⟩
def HL_MB_RSP_CTL_SIZE_LOG2 : Field := ⟨4, 4⟩
def HL_MB_COPY_CTL_EN : Field := ⟨0, 1⟩
def HL_MB_COPY_CTL_SIZE_LOG2 : Field := ⟨4, 4⟩
def HL_FW_STATUS_STATE : Field := ⟨0, 3⟩
def HL_FW_STATUS_SLOT : Field := ⟨3, 1⟩
def HL_FW_STATUS_COUNTER : Field := ⟨16, 16⟩
def HL_LOG_CFG_THRESH : Field := ⟨0, 12⟩
def HL_LOG_CFG_MIRROR_EN : Field := ⟨31, 1⟩
def HL_PM_CFG_DAY_OFS_S : Field := ⟨0, 17⟩
def HL_IW_TREE_SEL_CHAN : Field := ⟨0, 5⟩
def HL_IW_TREE_SEL_BASE : Field := ⟨8, 5⟩
def HL_IW_CTX_SEL_CHAN : Field := ⟨0, 5⟩
def HL_IW_CTX_SEL_BASE : Field := ⟨8, 5⟩
def HL_IW_STATUS_DISCARD : Field := ⟨0, 1⟩
def HL_IW_STATUS_REASON : Field := ⟨4, 4⟩
def HL_IW_STATUS_CHAN : Field := ⟨8, 5⟩
def HL_IW_STATUS_OFFSET : Field := ⟨16, 16⟩

end F

/-- Rows of the Channel register list, part 0 (R646). -/
def chRows0 : List RegRow := [
  ⟨"CH_MODE", 0x0, [], 0x1, 0x0, 0x0, 0x0⟩,
  ⟨"CH_MODE_CTL", 0x4, [], 0x2, 0x3, 0x0, 0x0⟩,
  ⟨"CH_HALT_CAUSE", 0x8, [], 0x0, 0x0, 0x0, 0x0⟩,
  ⟨"CH_RESET", 0xc, [], 0x0, 0x0, 0x0, 0x0⟩,
  ⟨"CH_HALT_TIME", 0x10, [], 0x0, 0x0, 0x0, 0x0⟩,
  ⟨"CH_DS_CFG", 0x1000, [], 0x0, 0x7, 0x0, 0x0⟩,
  ⟨"CH_DS_SYNC", 0x1004, [], 0x32, 0xff, 0x0, 0x0⟩,
  ⟨"CH_DS_STATUS", 0x1008, [], 0x0, 0x0, 0x0, 0x0⟩,
  ⟨"CH_DS_SFC_LO", 0x1010, [], 0x0, 0x0, 0x0, 0x0⟩,
  ⟨"CH_DS_SFC_HI", 0x1014, [], 0x0, 0x0, 0x0, 0x0⟩,
  ⟨"CH_RX_CFG", 0x1020, [], 0x3e800000, 0x3fffff03, 0x0, 0x0⟩,
  ⟨"CH_RX_REASM", 0x1024, [], 0x4, 0xff, 0x0, 0x0⟩,
  ⟨"CH_TS_DS_FIXED", 0x1030, [], 0x0, 0xffffffff, 0x0, 0x0⟩,
  ⟨"CH_TS_DS_LINE", 0x1034, [], 0x118, 0x1ff, 0x0, 0x0⟩,
  ⟨"CH_TS_DS_FEC", 0x1038, [], 0xf800d8, 0xfff0fff, 0x0, 0x0⟩,
  ⟨"CH_TS_DS_BIT", 0x103c, [], 0x191e1, 0xffffff, 0x0, 0x0⟩,
  ⟨"CH_DS_BCAST", 0x1040, [(4, 8)], 0x0, 0xbfffffff, 0x0, 0x0⟩,
  ⟨"CH_US_CFG", 0x2000, [], 0x14, 0xff, 0x0, 0x0⟩,
  ⟨"CH_US_RSP", 0x2004, [], 0x88b8, 0xfffff, 0x0, 0x0⟩,
  ⟨"CH_US_LASER", 0x2008, [], 0x200100, 0xfff0fff, 0x0, 0x0⟩,
  ⟨"CH_US_GUARD", 0x200c, [], 0x20, 0xf1, 0x80000000, 0x0⟩,
  ⟨"CH_TS_US_FIXED", 0x2010, [], 0x0, 0xffffffff, 0x0, 0x0⟩,
  ⟨"CH_US_BIT", 0x2014, [], 0x191e1, 0xffffff, 0x0, 0x0⟩,
  ⟨"CH_US_FEC", 0x2018, [], 0xf800e8, 0xfff0fff, 0x0, 0x0⟩]
/-- Rows of the Channel register list, part 1 (R646). -/
def chRows1 : List RegRow := [
  ⟨"CH_US_PAUSE_CFG", 0x2020, [], 0x1, 0x7, 0x0, 0x0⟩,
  ⟨"CH_US_PAUSE_MAC_LO", 0x2024, [], 0x0, 0xffffffff, 0x0, 0x0⟩,
  ⟨"CH_US_PAUSE_MAC_HI", 0x2028, [], 0x0, 0xffff, 0x0, 0x0⟩,
  ⟨"CH_US_PAUSE_STATUS", 0x202c, [], 0x0, 0x0, 0x0, 0x0⟩,
  ⟨"CH_US_PROFILE", 0x2040, [(4, 8)], 0x0, 0x0, 0x0, 0x0⟩,
  ⟨"CH_US_SLOT", 0x2400, [(4, 256)], 0x0, 0x20000, 0x0, 0x0⟩,
  ⟨"CH_ACT_STATUS", 0x2800, [], 0x0, 0x0, 0x0, 0x0⟩,
  ⟨"CH_ACT_EQD", 0x2804, [], 0x0, 0x0, 0x0, 0x0⟩,
  ⟨"CH_ACT_SN_CFG", 0x2808, [], 0xbb80, 0xffff, 0x0, 0x0⟩,
  ⟨"CH_ACT_CFG", 0x280c, [], 0x0, 0x3fff, 0x0, 0x0⟩,
  ⟨"CH_ACT_TIMERS", 0x2810, [], 0x7d2710, 0xffffffff, 0x0, 0x0⟩,
  ⟨"CH_ACT_FAST", 0x2814, [], 0x1000c8, 0xffffff, 0x0, 0x0⟩,
  ⟨"CH_PARSE_CFG", 0x3000, [], 0x1f, 0x1f, 0x0, 0x0⟩,
  ⟨"CH_PARSE_TPID", 0x3004, [], 0x9100, 0xffff, 0x0, 0x0⟩,
  ⟨"CH_PARSE_UDP", 0x3008, [], 0x86812b5, 0xffffffff, 0x0, 0x0⟩,
  ⟨"CH_PARSE_MALFORMED", 0x300c, [], 0x0, 0xff0f, 0x0, 0x0⟩,
  ⟨"CH_FRAG_CFG", 0x3010, [], 0x320101, 0x7ffff01, 0x0, 0x0⟩,
  ⟨"CH_FRAG_STATUS", 0x3014, [], 0x0, 0x0, 0x0, 0x0⟩,
  ⟨"CH_CLS_CFG", 0x3018, [], 0x0, 0xff, 0x0, 0x0⟩,
  ⟨"CH_KEY_SEL_DS", 0x3020, [(8, 4)], 0x0, 0xffffff, 0x0, 0x0⟩,
  ⟨"CH_KEY_SEL_US", 0x3024, [(8, 4)], 0x0, 0xffffff, 0x0, 0x0⟩,
  ⟨"CH_TREE_SEL_DS", 0x3040, [(8, 4)], 0x0, 0xffffff, 0x0, 0x0⟩,
  ⟨"CH_TREE_SEL_US", 0x3044, [(8, 4)], 0x0, 0xffffff, 0x0, 0x0⟩,
  ⟨"CH_CLS_MIRROR", 0x3060, [(4, 4)], 0x0, 0x80003fff, 0x0, 0x0⟩]
/-- Rows of the Channel register list, part 2 (R646). -/
def chRows2 : List RegRow := [
  ⟨"CH_HASH_FIELDS_LO", 0x3070, [(8, 4)], 0x0, 0xffffffff, 0x0, 0x0⟩,
  ⟨"CH_HASH_FIELDS_HI", 0x3074, [(8, 4)], 0x0, 0xffffffff, 0x0, 0x0⟩,
  ⟨"CH_HASH_TKEY", 0x3090, [(4, 10)], 0x0, 0xffffffff, 0x0, 0x0⟩,
  ⟨"CH_TREE_ROOT", 0x3100, [(32, 4), (4, 8)], 0x0, 0xbfffffff, 0x0, 0x0⟩,
  ⟨"CH_SHEAF_CTL", 0x3200, [], 0x0, 0x0, 0x0, 0x0⟩,
  ⟨"CH_SHEAF_STATUS", 0x3204, [], 0x0, 0x0, 0x0, 0x0⟩,
  ⟨"CH_SHEAF_CHECK", 0x3208, [], 0x0, 0x0, 0x0, 0x0⟩,
  ⟨"CH_SHEAF_ARM", 0x320c, [], 0x0, 0x0, 0x0, 0x0⟩,
  ⟨"CH_SHEAF_ARM_T_LO", 0x3210, [], 0x0, 0x0, 0x0, 0x0⟩,
  ⟨"CH_SHEAF_ARM_T_HI", 0x3214, [], 0x0, 0x0, 0x0, 0x0⟩,
  ⟨"CH_SHEAF_LAST_T_LO", 0x3218, [], 0x0, 0x0, 0x0, 0x0⟩,
  ⟨"CH_SHEAF_LAST_T_HI", 0x321c, [], 0x0, 0x0, 0x0, 0x0⟩,
  ⟨"CH_SHEAF_TAG", 0x3220, [(16, 4)], 0x0, 0xffff, 0x0, 0x0⟩,
  ⟨"CH_SHEAF_INFLIGHT", 0x3224, [(16, 4)], 0x0, 0x0, 0x0, 0x0⟩,
  ⟨"CH_SHEAF_PINS", 0x3228, [(16, 4)], 0x0, 0x0, 0x0, 0x0⟩,
  ⟨"CH_SHEAF_FRAGS", 0x322c, [(16, 4)], 0x0, 0x0, 0x0, 0x0⟩,
  ⟨"CH_KEY_EXT", 0x3400, [(512, 4), (64, 8), (4, 14)], 0x0, 0x3fffff, 0x0, 0x0⟩,
  ⟨"CH_IND", 0x3c00, [(4, 256)], 0x0, 0xffffffff, 0x0, 0x0⟩,
  ⟨"CH_GR_CFG", 0x4000, [], 0x100, 0x3fff, 0x0, 0x0⟩,
  ⟨"CH_GR_STATUS", 0x4004, [], 0x3000, 0x0, 0x0, 0x0⟩,
  ⟨"CH_GR_GLEAN", 0x4008, [], 0x0, 0x0, 0x0, 0x0⟩,
  ⟨"CH_GR_BANKS", 0x400c, [], 0x0, 0x0, 0x0, 0x0⟩,
  ⟨"CH_GR_MIGRATE", 0x4010, [], 0x0, 0x0, 0x0, 0x0⟩,
  ⟨"CH_GR_FAULT", 0x4014, [], 0x0, 0x0, 0x0, 0x0⟩]
/-- Rows of the Channel register list, part 3 (R646). -/
def chRows3 : List RegRow := [
  ⟨"CH_GR_ERR", 0x4100, [(4, 26)], 0x0, 0x0, 0x0, 0x0⟩,
  ⟨"CH_RXQ_CTL", 0x6000, [(32, 256)], 0x80000060, 0x3ff1, 0x0, 0x0⟩,
  ⟨"CH_RXQ_START", 0x6004, [(32, 256)], 0x0, 0xffffffff, 0x0, 0x0⟩,
  ⟨"CH_RXQ_BASE_LO", 0x6008, [(32, 256)], 0x0, 0xffffffc0, 0x0, 0x0⟩,
  ⟨"CH_RXQ_BASE_HI", 0x600c, [(32, 256)], 0x0, 0xffffffff, 0x0, 0x0⟩,
  ⟨"CH_RXQ_HEAD", 0x6010, [(32, 256)], 0x0, 0x0, 0x0, 0x0⟩,
  ⟨"CH_RXQ_TAIL", 0x6014, [(32, 256)], 0x0, 0x0, 0x0, 0x0⟩,
  ⟨"CH_RXQ_STAT", 0x6018, [(32, 256)], 0x0, 0x0, 0x0, 0x0⟩,
  ⟨"CH_TXQ_CTL", 0x8000, [(32, 256)], 0x81000060, 0x7f073ff1, 0x0, 0x0⟩,
  ⟨"CH_TXQ_START", 0x8004, [(32, 256)], 0x0, 0xffffffff, 0x0, 0x0⟩,
  ⟨"CH_TXQ_BASE_LO", 0x8008, [(32, 256)], 0x0, 0xffffffc0, 0x0, 0x0⟩,
  ⟨"CH_TXQ_BASE_HI", 0x800c, [(32, 256)], 0x0, 0xffffffff, 0x0, 0x0⟩,
  ⟨"CH_TXQ_HEAD", 0x8010, [(32, 256)], 0x0, 0x0, 0x0, 0x0⟩,
  ⟨"CH_TXQ_TAIL", 0x8014, [(32, 256)], 0x0, 0x0, 0x0, 0x0⟩,
  ⟨"CH_TXQ_MAP", 0x8018, [(32, 256)], 0x0, 0xffff00ff, 0x0, 0x0⟩,
  ⟨"CH_TXQ_CTX", 0x801c, [(32, 256)], 0x0, 0x3fff, 0x0, 0x0⟩,
  ⟨"CH_CRING_CTL", 0xa000, [(32, 64)], 0x80000060, 0x7ff3, 0x0, 0x0⟩,
  ⟨"CH_CRING_START", 0xa004, [(32, 64)], 0x0, 0xffffffff, 0x0, 0x0⟩,
  ⟨"CH_CRING_BASE_LO", 0xa008, [(32, 64)], 0x0, 0xffffffc0, 0x0, 0x0⟩,
  ⟨"CH_CRING_BASE_HI", 0xa00c, [(32, 64)], 0x0, 0xffffffff, 0x0, 0x0⟩,
  ⟨"CH_CRING_PROD", 0xa010, [(32, 64)], 0x0, 0x0, 0x0, 0x0⟩,
  ⟨"CH_CRING_CONS", 0xa014, [(32, 64)], 0x0, 0x0, 0x0, 0x0⟩,
  ⟨"CH_CRING_ARM", 0xa018, [(32, 64)], 0x0, 0x0, 0x0, 0x0⟩,
  ⟨"CH_CRING_STAT", 0xa01c, [(32, 64)], 0x0, 0x0, 0x0, 0x0⟩]
/-- Rows of the Channel register list, part 4 (R646). -/
def chRows4 : List RegRow := [
  ⟨"CH_DB_BASE_LO", 0xa800, [], 0x0, 0xfffff001, 0x0, 0x0⟩,
  ⟨"CH_DB_BASE_HI", 0xa804, [], 0x0, 0xffffffff, 0x0, 0x0⟩,
  ⟨"CH_DB_POLL", 0xa808, [], 0x64, 0x80003fff, 0x0, 0x0⟩,
  ⟨"CH_DB_KICK", 0xa80c, [], 0x0, 0x0, 0x0, 0x0⟩,
  ⟨"CH_RXQ_HOLD", 0xa810, [], 0x64, 0xffff, 0x0, 0x0⟩,
  ⟨"CH_RING_FAULT", 0xa814, [], 0x0, 0x0, 0x0, 0x0⟩,
  ⟨"CH_RING_FAULT_IDX", 0xa818, [], 0x0, 0x0, 0x0, 0x0⟩,
  ⟨"CH_CPL_STATUS", 0xa820, [], 0x0, 0x0, 0x0, 0x0⟩,
  ⟨"CH_TU_CTL", 0xb000, [], 0x0, 0x1, 0x0, 0x0⟩,
  ⟨"CH_TU_STATUS", 0xb004, [], 0x0, 0x0, 0x0, 0x0⟩,
  ⟨"CH_TU_KP", 0xb008, [], 0xc000, 0xffffffff, 0x0, 0x0⟩,
  ⟨"CH_TU_KI", 0xb00c, [], 0x4000, 0xffffffff, 0x0, 0x0⟩,
  ⟨"CH_TU_LIMITS", 0xb010, [], 0x3203e8, 0xffffffff, 0x0, 0x0⟩,
  ⟨"CH_TU_FREQ", 0xb014, [], 0x0, 0x0, 0x0, 0x0⟩,
  ⟨"CH_TU_OFFSET", 0xb018, [], 0x0, 0x0, 0x0, 0x0⟩,
  ⟨"CH_TU_INTEG", 0xb01c, [], 0x0, 0xffffffff, 0x0, 0x0⟩,
  ⟨"CH_TU_PHASE_LO", 0xb020, [], 0x0, 0x0, 0x0, 0x0⟩,
  ⟨"CH_TU_PHASE_HI", 0xb024, [], 0x0, 0x0, 0x0, 0x0⟩,
  ⟨"CH_TU_TEQD", 0xb028, [], 0x0, 0x0, 0x0, 0x0⟩,
  ⟨"CH_TU_ASYM", 0xb02c, [], 0x80000000, 0xffffffff, 0x0, 0x0⟩,
  ⟨"CH_TU_CORR", 0xb030, [], 0x0, 0xffffffff, 0x0, 0x0⟩,
  ⟨"CH_TU_MSG_SFC_LO", 0xb040, [], 0x0, 0x0, 0x0, 0x0⟩,
  ⟨"CH_TU_MSG_SFC_HI", 0xb044, [], 0x0, 0x0, 0x0, 0x0⟩,
  ⟨"CH_TU_MSG_SEC_LO", 0xb048, [], 0x0, 0x0, 0x0, 0x0⟩]
/-- Rows of the Channel register list, part 5 (R646). -/
def chRows5 : List RegRow := [
  ⟨"CH_TU_MSG_SEC_HI", 0xb04c, [], 0x0, 0x0, 0x0, 0x0⟩,
  ⟨"CH_TU_MSG_NS", 0xb050, [], 0x0, 0x0, 0x0, 0x0⟩,
  ⟨"CH_TU_MSG_ARM", 0xb054, [], 0x0, 0x0, 0x0, 0x0⟩,
  ⟨"CH_TSQ_STATUS", 0xb080, [], 0x0, 0x0, 0x80000000, 0x0⟩,
  ⟨"CH_TSQ_HEAD", 0xb084, [], 0x0, 0x0, 0x0, 0x0⟩,
  ⟨"CH_TSQ_TS_LO", 0xb088, [], 0x0, 0x0, 0x0, 0x0⟩,
  ⟨"CH_TSQ_TS_HI", 0xb08c, [], 0x0, 0x0, 0x0, 0x0⟩,
  ⟨"CH_TSQ_POP", 0xb090, [], 0x0, 0x0, 0x0, 0x0⟩,
  ⟨"CH_PWR_STATUS", 0xc000, [], 0x1, 0x0, 0x0, 0x0⟩,
  ⟨"CH_PWR_CTL", 0xc004, [], 0x1, 0x3, 0x0, 0x0⟩,
  ⟨"CH_IDLE_TIMER", 0xc008, [], 0x7d0, 0xffffff, 0x0, 0x0⟩,
  ⟨"CH_STOP_TIMER", 0xc00c, [], 0x0, 0xffff, 0x0, 0x0⟩,
  ⟨"CH_WAKE_CFG", 0xc010, [], 0x7, 0xffff0007, 0x0, 0x0⟩,
  ⟨"CH_WAKE_SRC", 0xc014, [], 0x0, 0x0, 0x0, 0x0⟩,
  ⟨"CH_STOP_REFUSER", 0xc018, [], 0x0, 0x0, 0x0, 0x0⟩,
  ⟨"CH_PAD_RELEASE", 0xc01c, [], 0x0, 0x0, 0x0, 0x0⟩,
  ⟨"CH_SEAL_FAIL_LO", 0xc020, [], 0x0, 0x0, 0x0, 0x0⟩,
  ⟨"CH_SEAL_FAIL_HI", 0xc024, [], 0x0, 0x0, 0x0, 0x0⟩,
  ⟨"CH_LANE", 0xc030, [], 0x0, 0x11f, 0x0, 0x0⟩,
  ⟨"CH_WAKE_PORT", 0xc040, [(4, 16)], 0x0, 0x8001ffff, 0x0, 0x0⟩,
  ⟨"CH_WAKE_MASK", 0xc200, [(32, 16), (4, 4)], 0x0, 0xffffffff, 0x0, 0x0⟩,
  ⟨"CH_WAKE_CRC", 0xc210, [(32, 16)], 0x0, 0xffff, 0x0, 0x0⟩,
  ⟨"CH_DRILL_CMD", 0xd000, [], 0x0, 0x0, 0x0, 0x0⟩,
  ⟨"CH_DRILL_S_TIME_LO", 0xd010, [], 0x0, 0xffffffff, 0x0, 0x0⟩]
/-- Rows of the Channel register list, part 6 (R646). -/
def chRows6 : List RegRow := [
  ⟨"CH_DRILL_S_FRAC", 0xd018, [], 0x0, 0xffffffff, 0x0, 0x0⟩,
  ⟨"CH_DRILL_S_PERIOD", 0xd01c, [], 0x0, 0xffffffff, 0x0, 0x0⟩,
  ⟨"CH_DRILL_S_ACT", 0xd020, [], 0x0, 0xffff005f, 0x0, 0x0⟩,
  ⟨"CH_DRILL_S_TARGET", 0xd024, [], 0x0, 0xffffffff, 0x0, 0x0⟩,
  ⟨"CH_DRILL_S_COUNT", 0xd028, [], 0x0, 0xffff, 0x0, 0x0⟩,
  ⟨"CH_DRILL_S_STATUS", 0xd02c, [], 0x0, 0x0, 0x0, 0x0⟩,
  ⟨"CH_DRILL_CFG", 0xd040, [], 0x64, 0xffff, 0x0, 0x0⟩,
  ⟨"CH_DRILL_GATE", 0xd080, [(4, 8)], 0x0, 0xffffffff, 0x0, 0x0⟩,
  ⟨"CH_PM_CUR15_START_LO", 0xf000, [], 0x0, 0x0, 0x0, 0x0⟩,
  ⟨"CH_PM_CUR15_ES", 0xf004, [], 0x0, 0x0, 0x0, 0x0⟩,
  ⟨"CH_PM_CUR15_SES", 0xf008, [], 0x0, 0x0, 0x0, 0x0⟩,
  ⟨"CH_PM_CUR15_UAS", 0xf00c, [], 0x0, 0x0, 0x0, 0x0⟩,
  ⟨"CH_PM_CUR15_NMS", 0xf010, [], 0x0, 0x0, 0x0, 0x0⟩,
  ⟨"CH_PM_CUR15_FLAGS", 0xf014, [], 0x0, 0x0, 0x0, 0x0⟩,
  ⟨"CH_PM_CUR24_START_LO", 0xf020, [], 0x0, 0x0, 0x0, 0x0⟩,
  ⟨"CH_PM_CUR24_ES", 0xf024, [], 0x0, 0x0, 0x0, 0x0⟩,
  ⟨"CH_PM_CUR24_SES", 0xf028, [], 0x0, 0x0, 0x0, 0x0⟩,
  ⟨"CH_PM_CUR24_UAS", 0xf02c, [], 0x0, 0x0, 0x0, 0x0⟩,
  ⟨"CH_PM_CUR24_NMS", 0xf030, [], 0x0, 0x0, 0x0, 0x0⟩,
  ⟨"CH_PM_CUR24_FLAGS", 0xf034, [], 0x0, 0x0, 0x0, 0x0⟩,
  ⟨"CH_PM_LAST15_START_LO", 0xf040, [], 0x0, 0x0, 0x0, 0x0⟩,
  ⟨"CH_PM_LAST15_ES", 0xf044, [], 0x0, 0x0, 0x0, 0x0⟩,
  ⟨"CH_PM_LAST15_SES", 0xf048, [], 0x0, 0x0, 0x0, 0x0⟩,
  ⟨"CH_PM_LAST15_UAS", 0xf04c, [], 0x0, 0x0, 0x0, 0x0⟩]
/-- Rows of the Channel register list, part 7 (R646). -/
def chRows7 : List RegRow := [
  ⟨"CH_PM_LAST15_NMS", 0xf050, [], 0x0, 0x0, 0x0, 0x0⟩,
  ⟨"CH_PM_LAST15_FLAGS", 0xf054, [], 0x0, 0x0, 0x0, 0x0⟩,
  ⟨"CH_PM_LAST24_START_LO", 0xf060, [], 0x0, 0x0, 0x0, 0x0⟩,
  ⟨"CH_PM_LAST24_ES", 0xf064, [], 0x0, 0x0, 0x0, 0x0⟩,
  ⟨"CH_PM_LAST24_SES", 0xf068, [], 0x0, 0x0, 0x0, 0x0⟩,
  ⟨"CH_PM_LAST24_UAS", 0xf06c, [], 0x0, 0x0, 0x0, 0x0⟩,
  ⟨"CH_PM_LAST24_NMS", 0xf070, [], 0x0, 0x0, 0x0, 0x0⟩,
  ⟨"CH_PM_LAST24_FLAGS", 0xf074, [], 0x0, 0x0, 0x0, 0x0⟩,
  ⟨"CH_PM_STATUS", 0xf080, [], 0x0, 0x0, 0x0, 0x0⟩,
  ⟨"CH_PM_LAST_SEC", 0xf084, [], 0x0, 0x0, 0x0, 0x0⟩,
  ⟨"CH_PORT_CFG", 0xf400, [], 0x0, 0x1, 0x0, 0x0⟩,
  ⟨"CH_PORT_STATUS", 0xf404, [], 0x0, 0x0, 0x40000, 0x0⟩,
  ⟨"CH_FB_TREE", 0xf800, [], 0x0, 0x0, 0x0, 0x0⟩,
  ⟨"CH_FB_CTX", 0xf804, [], 0x0, 0x0, 0x0, 0x0⟩,
  ⟨"CH_FB_MIGRATE", 0xf808, [], 0x0, 0x0, 0x0, 0x0⟩,
  ⟨"CH_FB_ERR", 0xf840, [(4, 22)], 0x0, 0x0, 0x0, 0x0⟩]
/-- The Channel register list (R646). -/
def chRows : List RegRow := chRows0 ++ chRows1 ++ chRows2 ++ chRows3 ++ chRows4 ++ chRows5 ++ chRows6 ++ chRows7

/-- Rows of the Headland register list, part 0 (R646). -/
def hlRows0 : List RegRow := [
  ⟨"HL_CFG_ID", 0x0, [], 0x10a3010, 0x0, 0x0, 0x0⟩,
  ⟨"HL_CFG_SIZES", 0x4, [], 0xe8c, 0x0, 0x0, 0x0⟩,
  ⟨"HL_CFG_DESIGN", 0x8, [], 0x53570100, 0x0, 0x0, 0x0⟩,
  ⟨"HL_SCRATCH", 0xc, [], 0x0, 0xffffffff, 0x0, 0x0⟩,
  ⟨"HL_RST_DEVICE", 0x1000, [], 0x0, 0x0, 0x0, 0x0⟩,
  ⟨"HL_RST_STATUS", 0x1004, [], 0x1, 0x0, 0x0, 0x0⟩,
  ⟨"HL_RST_CHAN_LO", 0x1008, [], 0x0, 0x0, 0x0, 0x1ffff⟩,
  ⟨"HL_RST_CHAN_HI", 0x100c, [], 0x0, 0x0, 0x1ffff, 0x0⟩,
  ⟨"HL_RST_RESETS", 0x1100, [(32, 17)], 0x0, 0x0, 0x0, 0x0⟩,
  ⟨"HL_RST_HALTS", 0x1104, [(32, 17), (4, 6)], 0x0, 0x0, 0x0, 0x0⟩,
  ⟨"HL_RST_HALTS7", 0x111c, [(32, 17)], 0x0, 0x0, 0x0, 0x0⟩,
  ⟨"HL_PWR_BUDGET", 0x2000, [], 0x280, 0x3ff, 0x0, 0x0⟩,
  ⟨"HL_PWR_STATUS", 0x2004, [], 0x320032, 0x0, 0x0, 0x0⟩,
  ⟨"HL_PWR_GRANT", 0x2040, [(4, 20)], 0x0, 0x0, 0x0, 0x0⟩,
  ⟨"HL_DVFS_REQ", 0x2100, [], 0x0, 0x0, 0x0, 0x0⟩,
  ⟨"HL_DVFS_STATUS", 0x2104, [], 0xff, 0x0, 0x0, 0x0⟩,
  ⟨"HL_STU_CTL", 0x3000, [], 0x0, 0x31f03, 0x0, 0x0⟩,
  ⟨"HL_STU_STATUS", 0x3004, [], 0x0, 0x0, 0x0, 0x0⟩,
  ⟨"HL_STU_KP", 0x3008, [], 0xc000, 0xffffffff, 0x0, 0x0⟩,
  ⟨"HL_STU_KI", 0x300c, [], 0x4000, 0xffffffff, 0x0, 0x0⟩,
  ⟨"HL_STU_LIMITS", 0x3010, [], 0x3203e8, 0xffffffff, 0x0, 0x0⟩,
  ⟨"HL_STU_FREQ", 0x3014, [], 0x0, 0x0, 0x0, 0x0⟩,
  ⟨"HL_STU_OFFSET", 0x3018, [], 0x0, 0x0, 0x0, 0x0⟩,
  ⟨"HL_STU_INTEG", 0x301c, [], 0x0, 0xffffffff, 0x0, 0x0⟩]
/-- Rows of the Headland register list, part 1 (R646). -/
def hlRows1 : List RegRow := [
  ⟨"HL_STU_SNAP_CTL", 0x3020, [], 0x0, 0x0, 0x0, 0x0⟩,
  ⟨"HL_STU_SNAP_TICK_LO", 0x3024, [], 0x0, 0x0, 0x0, 0x0⟩,
  ⟨"HL_STU_SNAP_TICK_HI", 0x3028, [], 0x0, 0x0, 0x0, 0x0⟩,
  ⟨"HL_STU_SNAP_SEC_LO", 0x302c, [], 0x0, 0x0, 0x0, 0x0⟩,
  ⟨"HL_STU_SNAP_SEC_HI", 0x3030, [], 0x0, 0x0, 0x0, 0x0⟩,
  ⟨"HL_STU_SNAP_NS", 0x3034, [], 0x0, 0x0, 0x0, 0x0⟩,
  ⟨"HL_STU_SNAP_FRAC", 0x3038, [], 0x0, 0x0, 0x0, 0x0⟩,
  ⟨"HL_STU_ADJ_NS_LO", 0x3040, [], 0x0, 0xffffffff, 0x0, 0x0⟩,
  ⟨"HL_STU_ADJ_NS_HI", 0x3044, [], 0x0, 0xffffffff, 0x0, 0x0⟩,
  ⟨"HL_STU_SET_SEC_LO", 0x3048, [], 0x0, 0xffffffff, 0x0, 0x0⟩,
  ⟨"HL_STU_SET_SEC_HI", 0x304c, [], 0x0, 0xffff, 0x0, 0x0⟩,
  ⟨"HL_STU_SET_NS", 0x3050, [], 0x0, 0x3fffffff, 0x0, 0x0⟩,
  ⟨"HL_STU_ADJ_CTL", 0x3054, [], 0x0, 0x0, 0x0, 0x0⟩,
  ⟨"HL_STU_PPS_IN_DELAY", 0x3060, [], 0x0, 0xffffffff, 0x0, 0x0⟩,
  ⟨"HL_STU_PPS_SEC_LO", 0x3064, [], 0x0, 0xffffffff, 0x0, 0x0⟩,
  ⟨"HL_STU_PPS_SEC_HI", 0x3068, [], 0x0, 0x8000ffff, 0x0, 0x0⟩,
  ⟨"HL_STU_PPS_OUT", 0x3070, [], 0x64, 0xff, 0x0, 0x0⟩,
  ⟨"HL_STU_PPS_OUT_OFS", 0x3074, [], 0x0, 0xffffffff, 0x0, 0x0⟩,
  ⟨"HL_STU_DEVID", 0x3080, [], 0x0, 0xffff, 0x0, 0x0⟩,
  ⟨"HL_DRILL_CMD", 0x4000, [], 0x0, 0x0, 0x0, 0x0⟩,
  ⟨"HL_DRILL_S_TIME_LO", 0x4010, [], 0x0, 0xffffffff, 0x0, 0x0⟩,
  ⟨"HL_DRILL_S_TIME_HI", 0x4014, [], 0x0, 0xffffffff, 0x0, 0x0⟩,
  ⟨"HL_DRILL_S_FRAC", 0x4018, [], 0x0, 0xffffffff, 0x0, 0x0⟩,
  ⟨"HL_DRILL_S_PERIOD", 0x401c, [], 0x0, 0xffffffff, 0x0, 0x0⟩]
/-- Rows of the Headland register list, part 2 (R646). -/
def hlRows2 : List RegRow := [
  ⟨"HL_DRILL_S_ACT", 0x4020, [], 0x0, 0xffff007f, 0x0, 0x0⟩,
  ⟨"HL_DRILL_S_TARGET", 0x4024, [], 0x0, 0xffffffff, 0x0, 0x0⟩,
  ⟨"HL_DRILL_S_COUNT", 0x4028, [], 0x0, 0xffff, 0x0, 0x0⟩,
  ⟨"HL_DRILL_S_STATUS", 0x402c, [], 0x0, 0x0, 0x0, 0x0⟩,
  ⟨"HL_DRILL_DELTA_LO", 0x4040, [], 0x0, 0x0, 0x0, 0x0⟩,
  ⟨"HL_DRILL_DELTA_HI", 0x4044, [], 0x0, 0x0, 0x0, 0x0⟩,
  ⟨"HL_DRILL_TRIG", 0x4100, [(4, 16)], 0x0, 0x1ff, 0x0, 0x0⟩,
  ⟨"HL_DRILL_CAP_CTL", 0x4200, [(16, 8)], 0x2, 0xffff000e, 0x10, 0x1⟩,
  ⟨"HL_DRILL_CAP_TS_LO", 0x4204, [(16, 8)], 0x0, 0x0, 0x0, 0x0⟩,
  ⟨"HL_DRILL_CAP_TS_HI", 0x4208, [(16, 8)], 0x0, 0x0, 0x0, 0x0⟩,
  ⟨"MV_SRC_LO", 0x5000, [(128, 8)], 0x0, 0xffffffff, 0x0, 0x0⟩,
  ⟨"MV_SRC_HI", 0x5004, [(128, 8)], 0x0, 0xffffffff, 0x0, 0x0⟩,
  ⟨"MV_DST_LO", 0x5008, [(128, 8)], 0x0, 0xffffffff, 0x0, 0x0⟩,
  ⟨"MV_DST_HI", 0x500c, [(128, 8)], 0x0, 0xffffffff, 0x0, 0x0⟩,
  ⟨"MV_COUNT", 0x5010, [(128, 8)], 0x0, 0xffffffff, 0x0, 0x0⟩,
  ⟨"MV_SPACE", 0x5014, [(128, 8)], 0x0, 0x1ff01ff, 0x0, 0x0⟩,
  ⟨"MV_CTL", 0x5018, [(128, 8)], 0x0, 0x7e, 0x0, 0x0⟩,
  ⟨"MV_RES_ADDR_LO", 0x501c, [(128, 8)], 0x0, 0xfffffff0, 0x0, 0x0⟩,
  ⟨"MV_RES_ADDR_HI", 0x5020, [(128, 8)], 0x0, 0xffffffff, 0x0, 0x0⟩,
  ⟨"MV_CFG", 0x5024, [(128, 8)], 0x3, 0x7, 0x0, 0x0⟩,
  ⟨"MV_STATUS", 0x5028, [(128, 8)], 0x0, 0x0, 0x0, 0x0⟩,
  ⟨"MV_REMAIN", 0x502c, [(128, 8)], 0x0, 0x0, 0x0, 0x0⟩,
  ⟨"MV_RESULT", 0x5030, [(128, 8)], 0x0, 0x0, 0x0, 0x0⟩,
  ⟨"MV_CMD", 0x5034, [(128, 8)], 0x0, 0x0, 0x0, 0x0⟩]
/-- Rows of the Headland register list, part 3 (R646). -/
def hlRows3 : List RegRow := [
  ⟨"MV_DISCARDS", 0x5038, [(128, 8)], 0x0, 0x0, 0x0, 0x0⟩,
  ⟨"MV_FAULT_LO", 0x503c, [(128, 8)], 0x0, 0x0, 0x0, 0x0⟩,
  ⟨"MV_FAULT_HI", 0x5040, [(128, 8)], 0x0, 0x0, 0x0, 0x0⟩,
  ⟨"HL_EVR_CTL", 0x6000, [(32, 16)], 0x80000060, 0x7ff1, 0x0, 0x0⟩,
  ⟨"HL_EVR_START", 0x6004, [(32, 16)], 0x0, 0xffffffff, 0x0, 0x0⟩,
  ⟨"HL_EVR_BASE_LO", 0x6008, [(32, 16)], 0x0, 0xffffffc0, 0x0, 0x0⟩,
  ⟨"HL_EVR_BASE_HI", 0x600c, [(32, 16)], 0x0, 0xffffffff, 0x0, 0x0⟩,
  ⟨"HL_EVR_PROD", 0x6010, [(32, 16)], 0x0, 0x0, 0x0, 0x0⟩,
  ⟨"HL_EVR_CONS", 0x6014, [(32, 16)], 0x0, 0xffffffff, 0x0, 0x0⟩,
  ⟨"HL_EVR_MOD", 0x6018, [(32, 16)], 0x0, 0xffff, 0x0, 0x0⟩,
  ⟨"HL_EVR_STAT", 0x601c, [(32, 16)], 0x0, 0x0, 0x0, 0x0⟩,
  ⟨"HL_VEC_MASK_LO", 0x6400, [], 0x0, 0xffffffff, 0x0, 0x0⟩,
  ⟨"HL_VEC_MASK_HI", 0x6404, [], 0x0, 0xffffffff, 0x0, 0x0⟩,
  ⟨"HL_VEC_PEND_LO", 0x6408, [], 0x0, 0x0, 0x0, 0x0⟩,
  ⟨"HL_VEC_PEND_HI", 0x640c, [], 0x0, 0x0, 0x0, 0x0⟩,
  ⟨"HL_EVSRC", 0x6800, [(4, 512)], 0x0, 0x1f, 0x0, 0x0⟩,
  ⟨"HL_HP_CFG", 0x7000, [], 0x32, 0xffff, 0x0, 0x0⟩,
  ⟨"HL_HP_STATUS", 0x7004, [], 0x0, 0x0, 0x0, 0x0⟩,
  ⟨"HL_HP_WATCH", 0x7008, [], 0x0, 0x0, 0x0, 0x0⟩,
  ⟨"HL_FM_STATUS", 0x8000, [], 0x30, 0x0, 0x0, 0x0⟩,
  ⟨"HL_FM_HO", 0x8004, [], 0x0, 0x0, 0x0, 0x0⟩,
  ⟨"HL_FM_HO_WINDOW", 0x8008, [], 0x0, 0x0, 0x0, 0x0⟩,
  ⟨"HL_FM_WEDGE_CFG", 0x800c, [], 0x800003e8, 0x8000ffff, 0x0, 0x0⟩,
  ⟨"HL_FM_WEDGED", 0x8010, [], 0x0, 0x0, 0x0, 0x0⟩]
/-- Rows of the Headland register list, part 4 (R646). -/
def hlRows4 : List RegRow := [
  ⟨"HL_FM_WEAR_CFG", 0x8014, [], 0x3c0400, 0x80ffffff, 0x0, 0x0⟩,
  ⟨"HL_SNS_TEMP", 0x8400, [(4, 21)], 0x0, 0x0, 0x0, 0x0⟩,
  ⟨"HL_SNS_VOLT", 0x8480, [(4, 38)], 0x0, 0x0, 0x0, 0x0⟩,
  ⟨"HL_SNS_AGE", 0x8580, [(4, 38)], 0x0, 0x0, 0x0, 0x0⟩,
  ⟨"HL_SNS_TEMP_LIM", 0x8700, [], 0x2802f8, 0xffffffff, 0x0, 0x0⟩,
  ⟨"HL_SNS_VOLT_LIM", 0x8704, [], 0x505, 0xffff, 0x0, 0x0⟩,
  ⟨"HL_SNS_VNOM", 0x8708, [], 0x32002ee, 0xffffffff, 0x0, 0x0⟩,
  ⟨"HL_SNS_AGE_LIM", 0x870c, [], 0x1f4, 0xffff, 0x0, 0x0⟩,
  ⟨"HL_SNS_ALARM_T", 0x8710, [], 0x0, 0x0, 0x0, 0x0⟩,
  ⟨"HL_SNS_ALARM_V_LO", 0x8714, [], 0x0, 0x0, 0x0, 0x0⟩,
  ⟨"HL_SNS_ALARM_V_HI", 0x8718, [], 0x0, 0x0, 0x0, 0x0⟩,
  ⟨"HL_SNS_ALARM_A_LO", 0x871c, [], 0x0, 0x0, 0x0, 0x0⟩,
  ⟨"HL_SNS_ALARM_A_HI", 0x8720, [], 0x0, 0x0, 0x0, 0x0⟩,
  ⟨"HL_MB_CMD_CTL", 0x9000, [], 0x60, 0xf1, 0x0, 0x0⟩,
  ⟨"HL_MB_CMD_BASE_LO", 0x9004, [], 0x0, 0xffffffc0, 0x0, 0x0⟩,
  ⟨"HL_MB_CMD_BASE_HI", 0x9008, [], 0x0, 0xffffffff, 0x0, 0x0⟩,
  ⟨"HL_MB_CMD_TAIL", 0x900c, [], 0x0, 0xffffffff, 0x0, 0x0⟩,
  ⟨"HL_MB_CMD_HEAD", 0x9010, [], 0x0, 0x0, 0x0, 0x0⟩,
  ⟨"HL_MB_CMD_START", 0x9014, [], 0x0, 0xffffffff, 0x0, 0x0⟩,
  ⟨"HL_MB_RSP_CTL", 0x9020, [], 0x60, 0xf1, 0x0, 0x0⟩,
  ⟨"HL_MB_RSP_BASE_LO", 0x9024, [], 0x0, 0xffffffc0, 0x0, 0x0⟩,
  ⟨"HL_MB_RSP_BASE_HI", 0x9028, [], 0x0, 0xffffffff, 0x0, 0x0⟩,
  ⟨"HL_MB_RSP_PROD", 0x902c, [], 0x0, 0x0, 0x0, 0x0⟩,
  ⟨"HL_MB_RSP_CONS", 0x9030, [], 0x0, 0xffffffff, 0x0, 0x0⟩]
/-- Rows of the Headland register list, part 5 (R646). -/
def hlRows5 : List RegRow := [
  ⟨"HL_MB_RSP_START", 0x9034, [], 0x0, 0xffffffff, 0x0, 0x0⟩,
  ⟨"HL_MB_COPY_CTL", 0x9040, [], 0x60, 0xf1, 0x0, 0x0⟩,
  ⟨"HL_MB_COPY_BASE_LO", 0x9044, [], 0x0, 0xffffffc0, 0x0, 0x0⟩,
  ⟨"HL_MB_COPY_BASE_HI", 0x9048, [], 0x0, 0xffffffff, 0x0, 0x0⟩,
  ⟨"HL_MB_COPY_PROD", 0x904c, [], 0x0, 0x0, 0x0, 0x0⟩,
  ⟨"HL_MB_COPY_CONS", 0x9050, [], 0x0, 0xffffffff, 0x0, 0x0⟩,
  ⟨"HL_MB_COPY_START", 0x9054, [], 0x0, 0xffffffff, 0x0, 0x0⟩,
  ⟨"HL_FW_STATUS", 0x9060, [], 0x0, 0x0, 0x0, 0x0⟩,
  ⟨"HL_FW_VERSION", 0x9064, [], 0x0, 0x0, 0x0, 0x0⟩,
  ⟨"HL_LOG_CFG", 0x9100, [], 0x400, 0x80000fff, 0x0, 0x0⟩,
  ⟨"HL_LOG_MIRROR_LO", 0x9104, [], 0x0, 0xffffffc0, 0x0, 0x0⟩,
  ⟨"HL_LOG_MIRROR_HI", 0x9108, [], 0x0, 0xffffffff, 0x0, 0x0⟩,
  ⟨"HL_LOG_SEQ", 0x910c, [], 0x0, 0x0, 0x0, 0x0⟩,
  ⟨"HL_LOG_CONS", 0x9110, [], 0x0, 0xffffffff, 0x0, 0x0⟩,
  ⟨"HL_PM_CFG", 0x9180, [], 0x0, 0x1ffff, 0x0, 0x0⟩,
  ⟨"HL_PM_PREV15_START_LO", 0x9400, [(128, 17)], 0x0, 0x0, 0x0, 0x0⟩,
  ⟨"HL_PM_PREV15_ES", 0x9404, [(128, 17)], 0x0, 0x0, 0x0, 0x0⟩,
  ⟨"HL_PM_PREV15_SES", 0x9408, [(128, 17)], 0x0, 0x0, 0x0, 0x0⟩,
  ⟨"HL_PM_PREV15_UAS", 0x940c, [(128, 17)], 0x0, 0x0, 0x0, 0x0⟩,
  ⟨"HL_PM_PREV15_NMS", 0x9410, [(128, 17)], 0x0, 0x0, 0x0, 0x0⟩,
  ⟨"HL_PM_PREV15_FLAGS", 0x9414, [(128, 17)], 0x0, 0x0, 0x0, 0x0⟩,
  ⟨"HL_PM_PREV24_START_LO", 0x9420, [(128, 17)], 0x0, 0x0, 0x0, 0x0⟩,
  ⟨"HL_PM_PREV24_ES", 0x9424, [(128, 17)], 0x0, 0x0, 0x0, 0x0⟩,
  ⟨"HL_PM_PREV24_SES", 0x9428, [(128, 17)], 0x0, 0x0, 0x0, 0x0⟩]
/-- Rows of the Headland register list, part 6 (R646). -/
def hlRows6 : List RegRow := [
  ⟨"HL_PM_PREV24_UAS", 0x942c, [(128, 17)], 0x0, 0x0, 0x0, 0x0⟩,
  ⟨"HL_PM_PREV24_NMS", 0x9430, [(128, 17)], 0x0, 0x0, 0x0, 0x0⟩,
  ⟨"HL_PM_PREV24_FLAGS", 0x9434, [(128, 17)], 0x0, 0x0, 0x0, 0x0⟩,
  ⟨"HL_IW_TREE_SEL", 0x10000, [], 0x0, 0x1f1f, 0x0, 0x0⟩,
  ⟨"HL_IW_CTX_SEL", 0x10004, [], 0x0, 0x1f1f, 0x0, 0x0⟩,
  ⟨"HL_IW_STATUS", 0x10008, [], 0x0, 0x0, 0x1, 0x0⟩]
/-- The Headland register list (R646). -/
def hlRows : List RegRow := hlRows0 ++ hlRows1 ++ hlRows2 ++ hlRows3 ++ hlRows4 ++ hlRows5 ++ hlRows6

namespace Cnt

/-- Each start marker received (R140). -/
def CH_CNT_DS_LF_RX : Nat := 0xe000
/-- Each line frame accepted (R140). -/
def CH_CNT_DS_LF_ACCEPTED : Nat := 0xe008
/-- Each line frame discarded under R85 (R140). -/
def CH_CNT_DS_LF_DISCARDED : Nat := 0xe010
/-- R90 (R140). -/
def CH_CNT_DS_LF_TRUNC : Nat := 0xe018
/-- Leaving ACCEPT, R87 (R140). -/
def CH_CNT_DS_SYNC_LOSS : Nat := 0xe020
/-- R87 (R140). -/
def CH_CNT_DS_FALSE_LOCK_REJECT : Nat := 0xe028
/-- R87 (R140). -/
def CH_CNT_DS_SFC_DISCONT : Nat := 0xe030
/-- R87 (R140). -/
def CH_CNT_DS_HDR_ERR : Nat := 0xe038
/-- Each line frame with at least one word flagged FEC-uncorrectable (R140). -/
def CH_CNT_DS_FEC_UNCORR : Nat := 0xe040
/-- R104 (R140). -/
def CH_CNT_DS_ENV_RX : Nat := 0xe048
/-- R104 (R140). -/
def CH_CNT_DS_ENV_IDLE : Nat := 0xe050
/-- R106 (R140). -/
def CH_CNT_DS_ENV_OTHER : Nat := 0xe058
/-- R102 (R140). -/
def CH_CNT_DS_ENV_HEC_CORR : Nat := 0xe060
/-- R102 (R140). -/
def CH_CNT_DS_ENV_HEC_UNCORR : Nat := 0xe068
/-- R103 (R140). -/
def CH_CNT_DS_ENV_OVERRUN : Nat := 0xe070
/-- R110 (R140). -/
def CH_CNT_DS_KEY_INVALID : Nat := 0xe078
/-- R111 (R140). -/
def CH_CNT_DS_KEY_MISSING : Nat := 0xe080
/-- R111 (R140). -/
def CH_CNT_DS_PLAIN_ON_SECURE : Nat := 0xe088
/-- R114 (R140). -/
def CH_CNT_DS_CIPHER_MISMATCH : Nat := 0xe090
/-- R125 (R140). -/
def CH_CNT_DS_REASM_GAP : Nat := 0xe098
/-- R125 (R140). -/
def CH_CNT_DS_REASM_TIMEOUT : Nat := 0xe0a0
/-- R125 (R140). -/
def CH_CNT_DS_REASM_KEY_MISMATCH : Nat := 0xe0a8
/-- R125 (R140). -/
def CH_CNT_DS_RUNT : Nat := 0xe0b0
/-- R125 (R140). -/
def CH_CNT_DS_OVERSIZE : Nat := 0xe0b8
/-- R125 (R140). -/
def CH_CNT_DS_FCS_ERR : Nat := 0xe0c0
/-- R121 (R140). -/
def CH_CNT_DS_NO_CELL : Nat := 0xe0c8
/-- R126 (R140). -/
def CH_CNT_DS_ERR_DELIVERED : Nat := 0xe0d0
/-- R124 (R140). -/
def CH_CNT_DS_FRAMES_OK : Nat := 0xe0d8
/-- R124, by the frame's length including FCS (R140). -/
def CH_CNT_DS_BYTES_OK : Nat := 0xe0e0
/-- R109 (R140). -/
def CH_CNT_DS_MGMT_FRAMES : Nat := 0xe0e8
/-- Each serial-number response sent (R177). -/
def CH_CNT_ACT_SN_SENT : Nat := 0xe400
/-- R151 (R177). -/
def CH_CNT_ACT_SN_SKIPPED : Nat := 0xe408
/-- R157 (R177). -/
def CH_CNT_ACT_DS_MSG : Nat := 0xe410
/-- R156 (R177). -/
def CH_CNT_ACT_DS_MSG_DROP : Nat := 0xe418
/-- R158 (R177). -/
def CH_CNT_ACT_US_MSG : Nat := 0xe420
/-- R166 (R177). -/
def CH_CNT_ACT_FAST_OK : Nat := 0xe428
/-- R168 (R177). -/
def CH_CNT_ACT_FAST_FAIL : Nat := 0xe430
/-- Each grant served (R218). -/
def CH_CNT_US_GRANTS : Nat := 0xe100
/-- Each burst sent (R218). -/
def CH_CNT_US_BURSTS : Nat := 0xe108
/-- Each frame whose last byte is sent (R218). -/
def CH_CNT_US_FRAMES : Nat := 0xe110
/-- As CH_CNT_US_FRAMES, by frame length including FCS (R218). -/
def CH_CNT_US_BYTES : Nat := 0xe118
/-- R190 (R218). -/
def CH_CNT_US_FRAGMENTS : Nat := 0xe120
/-- R191 (R218). -/
def CH_CNT_US_IDLE_BYTES : Nat := 0xe128
/-- R192 (R218). -/
def CH_CNT_US_REPORTS : Nat := 0xe130
/-- R181 (R218). -/
def CH_CNT_US_MAP_HEC_CORR : Nat := 0xe138
/-- R181 (R218). -/
def CH_CNT_US_MAP_ERR : Nat := 0xe140
/-- R181 (R218). -/
def CH_CNT_US_GRANT_RANGE : Nat := 0xe148
/-- R184 (R218). -/
def CH_CNT_US_GRANT_OVERLAP : Nat := 0xe150
/-- R201 (R218). -/
def CH_CNT_US_GRANT_LATE : Nat := 0xe158
/-- R188 (R218). -/
def CH_CNT_US_GRANT_SMALL : Nat := 0xe160
/-- R181 (R218). -/
def CH_CNT_US_BAD_PROFILE : Nat := 0xe168
/-- R201 (R218). -/
def CH_CNT_US_SHORT_LEAD : Nat := 0xe170
/-- R207 (R218). -/
def CH_CNT_US_ROGUE_TRIP : Nat := 0xe178
/-- R211 (R218). -/
def CH_CNT_US_PAUSE_RX : Nat := 0xe180
/-- R211 (R218). -/
def CH_CNT_US_PFC_RX : Nat := 0xe188
/-- R204 (R218). -/
def CH_CNT_US_STAGE_ECC : Nat := 0xe190
/-- R204 (R218). -/
def CH_CNT_US_CELL_ECC : Nat := 0xe198
/-- R203 (R218). -/
def CH_CNT_US_NOT_SENT : Nat := 0xe1a0
/-- Downstream cause 0x1 (R250). -/
def CH_CNT_PARSE_DS_TRUNC : Nat := 0xe200
/-- Downstream cause 0x2 (R250). -/
def CH_CNT_PARSE_DS_BAD_HLEN : Nat := 0xe208
/-- Downstream cause 0x3 (R250). -/
def CH_CNT_PARSE_DS_LEN_MISMATCH : Nat := 0xe210
/-- Downstream cause 0x4 (R250). -/
def CH_CNT_PARSE_DS_EXT_DEPTH : Nat := 0xe218
/-- Downstream cause 0x5 (R250). -/
def CH_CNT_PARSE_DS_VERSION : Nat := 0xe220
/-- Downstream cause 0x6 (R250). -/
def CH_CNT_PARSE_DS_TINY_FRAG : Nat := 0xe228
/-- Upstream cause 0x1 (R250). -/
def CH_CNT_PARSE_US_TRUNC : Nat := 0xe230
/-- Upstream cause 0x2 (R250). -/
def CH_CNT_PARSE_US_BAD_HLEN : Nat := 0xe238
/-- Upstream cause 0x3 (R250). -/
def CH_CNT_PARSE_US_LEN_MISMATCH : Nat := 0xe240
/-- Upstream cause 0x4 (R250). -/
def CH_CNT_PARSE_US_EXT_DEPTH : Nat := 0xe248
/-- Upstream cause 0x5 (R250). -/
def CH_CNT_PARSE_US_VERSION : Nat := 0xe250
/-- Upstream cause 0x6 (R250). -/
def CH_CNT_PARSE_US_TINY_FRAG : Nat := 0xe258
/-- R224 (R250). -/
def CH_CNT_PARSE_WINDOW : Nat := 0xe260
/-- R222, third tag (R250). -/
def CH_CNT_PARSE_VLAN_DEEP : Nat := 0xe268
/-- R222, fifth label (R250). -/
def CH_CNT_PARSE_MPLS_DEEP : Nat := 0xe270
/-- R243 (R250). -/
def CH_CNT_FRAG_FIRST : Nat := 0xe278
/-- R244 (R250). -/
def CH_CNT_FRAG_HIT : Nat := 0xe280
/-- R245 (R250). -/
def CH_CNT_FRAG_ORPHAN : Nat := 0xe288
/-- R243 (R250). -/
def CH_CNT_FRAG_EVICT : Nat := 0xe290
/-- R247 (R250). -/
def CH_CNT_FRAG_AGED : Nat := 0xe298
/-- Each frame delivered under EXCEPTION (R250). -/
def CH_CNT_PARSE_MAL_DELIVERED : Nat := 0xe2a0
/-- R261, downstream (R287). -/
def CH_CNT_CLS_DS_WALKS : Nat := 0xe300
/-- R261, upstream (R287). -/
def CH_CNT_CLS_US_WALKS : Nat := 0xe308
/-- R261 (R287). -/
def CH_CNT_CLS_NO_TREE : Nat := 0xe310
/-- R261 (R287). -/
def CH_CNT_CLS_DEPTH : Nat := 0xe318
/-- R261 (R287). -/
def CH_CNT_CLS_NODE_ERR : Nat := 0xe320
/-- R265 (R287). -/
def CH_CNT_CLS_RULE_ERR : Nat := 0xe328
/-- R270 (R287). -/
def CH_CNT_CLS_CTX_INVALID : Nat := 0xe330
/-- R275 (R287). -/
def CH_CNT_CLS_DROP : Nat := 0xe338
/-- R274 (R287). -/
def CH_CNT_CLS_DEST_DISABLED : Nat := 0xe340
/-- Each processor copy made to the host exception queue (R287). -/
def CH_CNT_CLS_COPY_HOST : Nat := 0xe348
/-- Each processor copy made to the Headland core (R287). -/
def CH_CNT_CLS_COPY_CORE : Nat := 0xe350
/-- R274 (R287). -/
def CH_CNT_CLS_COPY_SKIP : Nat := 0xe358
/-- Each mirror copy made (R287). -/
def CH_CNT_CLS_MIRROR : Nat := 0xe360
/-- R284 (R287). -/
def CH_CNT_CLS_IND_INVALID : Nat := 0xe368
/-- R254, at the read (R287). -/
def CH_CNT_CLS_TREE_ECC_CORR : Nat := 0xe370
/-- R657 (R287). -/
def CH_CNT_CLS_KEY_MISSING : Nat := 0xe378
/-- Each slot that becomes CURRENT (R311). -/
def CH_CNT_SHEAF_COMMITS : Nat := 0xe380
/-- R293, R294, R300 (R311). -/
def CH_CNT_SHEAF_REFUSED : Nat := 0xe388
/-- R301 (R311). -/
def CH_CNT_SHEAF_LATE : Nat := 0xe390
/-- R307 (R311). -/
def CH_CNT_SHEAF_PROTECT : Nat := 0xe398
/-- R296 (R311). -/
def CH_CNT_SHEAF_PIN_NOT_LIVE : Nat := 0xe3a0
/-- Each cell granted (R341). -/
def CH_CNT_GR_ALLOC : Nat := 0xe500
/-- Each cell that becomes free (R341). -/
def CH_CNT_GR_FREED : Nat := 0xe508
/-- R324 (R341). -/
def CH_CNT_GR_FAIL : Nat := 0xe510
/-- R322 (R341). -/
def CH_CNT_GR_LAST_CELL : Nat := 0xe518
/-- R323 (R341). -/
def CH_CNT_GR_RESERVE_WAIT : Nat := 0xe520
/-- R319 (R341). -/
def CH_CNT_GR_DOUBLE_FREE : Nat := 0xe528
/-- R319 (R341). -/
def CH_CNT_GR_FOREIGN_FREE : Nat := 0xe530
/-- R335 (R341). -/
def CH_CNT_GR_ECC_UNCORR : Nat := 0xe538
/-- R339 (R341). -/
def CH_CNT_GR_LOST_FRAMES : Nat := 0xe540
/-- R332 (R341). -/
def CH_CNT_GR_GLEANS : Nat := 0xe548
/-- Each doorbell line read completed (R382). -/
def CH_CNT_RING_DB_READS : Nat := 0xe600
/-- Each write to CH_DB_KICK (R382). -/
def CH_CNT_RING_KICKS : Nat := 0xe608
/-- R353 (R382). -/
def CH_CNT_RING_BAD_TAIL : Nat := 0xe610
/-- R363 (R382). -/
def CH_CNT_RING_PF_HIT : Nat := 0xe618
/-- R363 (R382). -/
def CH_CNT_RING_REFETCH : Nat := 0xe620
/-- R364 (R382). -/
def CH_CNT_RING_OWN_WAIT : Nat := 0xe628
/-- Each transmit descriptor consumed (R382). -/
def CH_CNT_TX_DESC : Nat := 0xe630
/-- R367 (R382). -/
def CH_CNT_TX_READ_ERR : Nat := 0xe638
/-- R377 (R382). -/
def CH_CNT_TX_FLUSHED : Nat := 0xe640
/-- Each receive descriptor consumed (R382). -/
def CH_CNT_RX_DESC : Nat := 0xe648
/-- Each frame written to a receive queue (R382). -/
def CH_CNT_RX_FRAMES : Nat := 0xe650
/-- R372 (R382). -/
def CH_CNT_RX_NO_HOST_BUFFER : Nat := 0xe658
/-- R373 (R382). -/
def CH_CNT_RX_TOO_LONG : Nat := 0xe660
/-- R377 (R382). -/
def CH_CNT_RX_FLUSH_DROP : Nat := 0xe668
/-- R377 (R382). -/
def CH_CNT_RX_FLUSHED : Nat := 0xe670
/-- Each completion entry written (R409). -/
def CH_CNT_CPL_WRITTEN : Nat := 0xe700
/-- R394 (R409). -/
def CH_CNT_CPL_HELD : Nat := 0xe708
/-- R395 (R409). -/
def CH_CNT_CPL_STALL : Nat := 0xe710
/-- R390 (R409). -/
def CH_CNT_CPL_BAD_CONS : Nat := 0xe718
/-- Each vector message of a completion ring (R409). -/
def CH_CNT_CPL_VEC : Nat := 0xe720
/-- Each event record written (R409). -/
def HL_CNT_EV_RECORDS : Nat := 0x6600
/-- R403 (R409). -/
def HL_CNT_EV_COALESCED : Nat := 0x6608
/-- R405 (R409). -/
def HL_CNT_EV_DEFERRED : Nat := 0x6610
/-- R406 (R409). -/
def HL_CNT_EV_DISCARD : Nat := 0x6618
/-- R405 (R409). -/
def HL_CNT_EV_BAD_CONS : Nat := 0x6620
/-- Each vector message sent (R409). -/
def HL_CNT_VEC_MSGS : Nat := 0x6628
/-- R431 (R443). -/
def CH_CNT_TU_SAMPLES : Nat := 0xe800
/-- R432 (R443). -/
def CH_CNT_TU_MSG_LOST : Nat := 0xe808
/-- R437, channel (R443). -/
def CH_CNT_TU_STEPS : Nat := 0xe810
/-- R436, channel (R443). -/
def CH_CNT_TU_OUTLIERS : Nat := 0xe818
/-- Each entry added under R440 (R443). -/
def CH_CNT_TSQ_PUSH : Nat := 0xe820
/-- R441 (R443). -/
def CH_CNT_TSQ_DROP : Nat := 0xe828
/-- Each STU servo sample (R443). -/
def HL_CNT_STU_SAMPLES : Nat := 0x3100
/-- R424, R437 (R443). -/
def HL_CNT_STU_STEPS : Nat := 0x3108
/-- R436, STU (R443). -/
def HL_CNT_STU_OUTLIERS : Nat := 0x3110
/-- R417 (R443). -/
def HL_CNT_STU_SRC_LOST : Nat := 0x3118
/-- R420 (R443). -/
def HL_CNT_STU_PPS_BAD : Nat := 0x3120
/-- Each on-time occurrence of a channel entry (R464). -/
def CH_CNT_DRILL_FIRED : Nat := 0xe900
/-- Each late occurrence performed, R449 (R464). -/
def CH_CNT_DRILL_LATE : Nat := 0xe908
/-- Each occurrence missed or skipped, R449 and R460 (R464). -/
def CH_CNT_DRILL_MISSED : Nat := 0xe910
/-- As the channel counter, for Headland entries (R464). -/
def HL_CNT_DRILL_FIRED : Nat := 0x4f00
/-- As the channel counter, for Headland entries (R464). -/
def HL_CNT_DRILL_LATE : Nat := 0x4f08
/-- As the channel counter, for Headland entries (R464). -/
def HL_CNT_DRILL_MISSED : Nat := 0x4f10
/-- Each capture, R455 (R464). -/
def HL_CNT_DRILL_CAPTURES : Nat := 0x4f18
/-- R455 (R464). -/
def HL_CNT_DRILL_CAP_TIMEOUT : Nat := 0x4f20
/-- R472, step 14 (R492). -/
def CH_CNT_PWR_STOPS : Nat := 0xc100
/-- R479, step 7 (R492). -/
def CH_CNT_PWR_WAKES : Nat := 0xc108
/-- R474 (R492). -/
def CH_STOP_REFUSED : Nat := 0xc110
/-- R480 (R492). -/
def CH_CNT_PWR_WAKE_IN_ENTRY : Nat := 0xc118
/-- R46 (R492). -/
def CH_CNT_PWR_STOPPED_ACCESS : Nat := 0xc120
/-- R486 (R492). -/
def CH_CNT_PWR_GRANTS_MISSED : Nat := 0xc128
/-- R467 (R492). -/
def CH_CNT_PWR_WATCH_LF : Nat := 0xc130
/-- R489 (R492). -/
def CH_CNT_PWR_SEAL_FAIL : Nat := 0xc138
/-- CH+0xC140 + 8 * (n - 1), n = 0x1 to 0x9: R474, refuser ID n (R492). -/
def CH_CNT_STOP_REF (n : Nat) : Nat := 0xc140 + 8 * (n - 1)
/-- Each DVFS change completed (R501). -/
def HL_CNT_DVFS_DONE : Nat := 0x2f00
/-- R494 (R501). -/
def HL_CNT_DVFS_REJECT : Nat := 0x2f08
/-- R497, reason 0x1 (R501). -/
def HL_CNT_PWR_OVER : Nat := 0x2f10
/-- R515 (R522). -/
def HL_CNT_MV_DONE : Nat := 0x5f00
/-- R519 (R522). -/
def HL_CNT_MV_HALT : Nat := 0x5f08
/-- R517 (R522). -/
def HL_CNT_MV_RETRY : Nat := 0x5f10
/-- Each chunk written, by its length (R522). -/
def HL_CNT_MV_BYTES : Nat := 0x5f18
/-- R545 (R552). -/
def HL_CNT_HO_DONE : Nat := 0x8f00
/-- R547 (R552). -/
def HL_CNT_HO_ABORT : Nat := 0x8f08
/-- R546 (R552). -/
def HL_CNT_HO_DS_LF_LOST : Nat := 0x8f10
/-- R546 (R552). -/
def HL_CNT_HO_GRANTS_MISSED : Nat := 0x8f18
/-- Each SWITCH of a bank migration (R552). -/
def HL_CNT_FM_MIGRATIONS : Nat := 0x8f20
/-- R549 (R552). -/
def HL_CNT_FM_WEDGES : Nat := 0x8f28
/-- Each command taken (R583). -/
def HL_CNT_MB_CMDS : Nat := 0x9f00
/-- R555 (R583). -/
def HL_CNT_MB_BAD_TAIL : Nat := 0x9f08
/-- R558 (R583). -/
def HL_CNT_MB_NOTICE_DROP : Nat := 0x9f10
/-- R559 (R583). -/
def HL_CNT_MB_COPY_DROP : Nat := 0x9f18
/-- R575 (R583). -/
def HL_CNT_LOG_OVERRUN : Nat := 0x9f20
/-- R576 (R583). -/
def HL_CNT_LOG_PERSIST_ERR : Nat := 0x9f28
/-- R569 (R583). -/
def HL_CNT_FW_ACTIVATIONS : Nat := 0x9f30
/-- R569 (R583). -/
def HL_CNT_FW_REVERTS : Nat := 0x9f38
/-- Each frame sent on the frame port (R626). -/
def CH_CNT_FP_OUT_FRAMES : Nat := 0xea00
/-- R609 (R626). -/
def CH_CNT_FP_OUT_ABORTED : Nat := 0xea08
/-- R608 (R626). -/
def CH_CNT_FP_XOFF_WAIT : Nat := 0xea10
/-- R613 (R626). -/
def CH_CNT_FP_OUT_DROP : Nat := 0xea18
/-- Each input frame stored (R626). -/
def CH_CNT_FP_IN_FRAMES : Nat := 0xea20
/-- R612 (R626). -/
def CH_CNT_FP_IN_BAD_META : Nat := 0xea28
/-- R612 (R626). -/
def CH_CNT_FP_IN_LEN_ERR : Nat := 0xea30
/-- R612 (R626). -/
def CH_CNT_FP_IN_ABORT : Nat := 0xea38
/-- R605 (R626). -/
def CH_CNT_CP_ENGINE_ERR : Nat := 0xea40
/-- R605 (R626). -/
def CH_CNT_CP_LATE : Nat := 0xea48
/-- R605 (R626). -/
def CH_CNT_CP_STAGE_MISS : Nat := 0xea50
/-- R597 (R626). -/
def CH_CNT_FR_US_SOB_WAIT : Nat := 0xea58
/-- R600 (R626). -/
def CH_CNT_PMD_SD_LOSS : Nat := 0xea60
/-- R617 (R626). -/
def HL_CNT_STU_TOD_BAD : Nat := 0x3128
/-- R589 (R626). -/
def HL_CNT_HP_RETRY : Nat := 0x7f00
/-- R590 (R626). -/
def HL_CNT_HP_FATAL : Nat := 0x7f08
/-- R587 (R626). -/
def HL_CNT_HP_RD_TIMEOUT : Nat := 0x7f10
/-- R593 (R626). -/
def HL_CNT_HP_TGT_BAD : Nat := 0x7f18
/-- R590 (R626). -/
def HL_CNT_HP_HL_DISCARD : Nat := 0x7f20
/-- R655 (R626). -/
def HL_CNT_HP_WR_TIMEOUT : Nat := 0x7f28
/-- R619 (R626). -/
def HL_CNT_PS_ERR : Nat := 0x9f40
/-- R633 (R639). -/
def HL_CNT_RESET_REFUSED : Nat := 0x1f00
/-- R75 step 3, by the number of writes abandoned (R639). -/
def HL_CNT_STREAM_ABANDON : Nat := 0x1f08
/-- R61 step 5 and R379 (R640). -/
def CH_CNT_DISABLE_DROP : Nat := 0xeb00
/-- R73 (R640). -/
def CH_CNT_RESET_REFUSED : Nat := 0xeb08
/-- R62, each fault in a Disabled channel (R640). -/
def CH_CNT_DISABLED_FAULT : Nat := 0xeb10
/-- Each access that sets HL_IW_STATUS.DISCARD (R641). -/
def HL_CNT_IW_DISCARD : Nat := 0x10f00

end Cnt

end Sys2Proof.Machine
end

