-- ==== Sys2Proof/Machine/Store.lean ====
section
/-!
DEFINITION. Sparse tables with a default, on which register files, counters and memories rest; bit
fields of registers; and little-endian byte order (R16).
-/

namespace Sys2Proof.Machine

/-- The value at `k`: the listed one, or the default. (DEDUCED, log entry 3) -/
def Sparse.get {α : Type} (d : Nat → α) : Sparse α → Nat → α
  | [], k => d k
  | (k', v) :: l, k => if k = k' then v else Sparse.get d l k

/-- The table without key `k`. -/
def Sparse.erase {α : Type} : Sparse α → Nat → Sparse α
  | [], _ => []
  | (k', v) :: l, k => if k = k' then Sparse.erase l k else (k', v) :: Sparse.erase l k

/-- The table with `(k, v)` put before the first greater key. -/
def Sparse.insert {α : Type} : Sparse α → Nat → α → Sparse α
  | [], k, v => [(k, v)]
  | (k', v') :: l, k, v =>
    if k < k' then (k, v) :: (k', v') :: l else (k', v') :: Sparse.insert l k v

/-- Write `v` at `k`. Writing the default removes the entry, so that equal tables are equal data. -/
def Sparse.set {α : Type} [DecidableEq α] (d : Nat → α) (l : Sparse α) (k : Nat) (v : α) : Sparse α :=
  if v = d k then Sparse.erase l k else Sparse.insert (Sparse.erase l k) k v

/-- Every listed key is above `b`, the keys rise strictly, and no entry equals its default. -/
def Sparse.wfFrom {α : Type} [DecidableEq α] (d : Nat → α) : Nat → Sparse α → Bool
  | _, [] => true
  | b, (k, v) :: l => decide (b ≤ k) && decide (v ≠ d k) && Sparse.wfFrom d (k + 1) l

/-- The canonical form of a table with default `d`. (DEDUCED, log entry 3) -/
def Sparse.wf {α : Type} [DecidableEq α] (d : Nat → α) (l : Sparse α) : Bool :=
  Sparse.wfFrom d 0 l

/-! ### Register fields -/

/-- The value of a field. -/
def getF (w : Word) (f : Field) : Nat :=
  w.toNat / 2 ^ f.lo % 2 ^ f.w

/-- The register with a field set to the low bits of `v`. -/
def setF (w : Word) (f : Field) (v : Nat) : Word :=
  BitVec.ofNat 32
    (w.toNat % 2 ^ f.lo + v % 2 ^ f.w * 2 ^ f.lo + w.toNat / 2 ^ (f.lo + f.w) * 2 ^ (f.lo + f.w))

/-- A one-bit field as a Boolean. -/
def getB (w : Word) (f : Field) : Bool :=
  getF w f != 0

/-- Whether an index array with these strides and counts has an element at offset `o` from its base. -/
def dimsCover : List (Nat × Nat) → Nat → Bool
  | [], o => o == 0
  | (st, n) :: ds, o => decide (o / st < n) && dimsCover ds (o % st)

/-- Whether the row of the register list holds the register at `off`. -/
def RegRow.covers (r : RegRow) (off : Nat) : Bool :=
  decide (r.base ≤ off) && dimsCover r.dims (off - r.base)

/-- The row that holds the register at `off`, if any (R646: no other offset holds a register). -/
def findRow : List RegRow → Nat → Option RegRow
  | [], _ => none
  | r :: rs, off => if r.covers off then some r else findRow rs off

/-- The reset value of the register at `off` of a window (R646); zero where there is no register. -/
def rowReset (rows : List RegRow) (off : Nat) : Word :=
  match findRow rows off with
  | some r => BitVec.ofNat 32 r.reset
  | none => 0

/-- Reset values of a channel's registers (R646). CH_MODE.FALLOW of CH16 is listed in the reset state.
(DEDUCED, log entries 3 and 115) -/
def chReset (off : Nat) : Word :=
  rowReset chRows off

/-- Reset values of the Headland's registers (R646). HL_PWR_GRANT_17 to 19 hold the floors of the
Headland islands at reset (R498). (DEDUCED, log entries 3 and 115) -/
def hlReset (off : Nat) : Word :=
  if off = Reg.HL_PWR_GRANT 17 then 0x18
  else if off = Reg.HL_PWR_GRANT 18 then 0x0E
  else if off = Reg.HL_PWR_GRANT 19 then 0x0C
  else rowReset hlRows off

/-! ### Bytes -/

/-- The zero default of memories and counters. (DEDUCED, log entry 3) -/
def zeroByte (_ : Nat) : Byte := 0

/-- Counters reset to zero (R27). -/
def zeroCnt (_ : Nat) : DWord := 0

/-- The number that little-endian bytes spell (R16). -/
def leNat : List Byte → Nat
  | [] => 0
  | b :: bs => b.toNat + 256 * leNat bs

/-- The number that big-endian bytes spell. -/
def beNat (bs : List Byte) : Nat :=
  bs.foldl (fun a b => 256 * a + b.toNat) 0

/-- `n` little-endian bytes of `v` (R16). -/
def leBytes : Nat → Nat → List Byte
  | 0, _ => []
  | n + 1, v => BitVec.ofNat 8 v :: leBytes n (v / 256)

/-- `n` big-endian bytes of `v`. -/
def beBytes (n v : Nat) : List Byte :=
  (leBytes n v).reverse

/-- `n` bytes of a memory from address `a`. -/
def Sparse.bytes (m : Sparse Byte) (a : Nat) : Nat → List Byte
  | 0 => []
  | n + 1 => Sparse.get zeroByte m a :: Sparse.bytes m (a + 1) n

/-- The little-endian number in `n` bytes of a memory. -/
def Sparse.le (m : Sparse Byte) (a n : Nat) : Nat :=
  leNat (Sparse.bytes m a n)

/-- Write bytes into a memory from address `a`. -/
def Sparse.putBytes (m : Sparse Byte) (a : Nat) : List Byte → Sparse Byte
  | [] => m
  | b :: bs => Sparse.putBytes (Sparse.set zeroByte m a b) (a + 1) bs

/-- Write a little-endian number of `n` bytes into a memory. -/
def Sparse.putLe (m : Sparse Byte) (a n v : Nat) : Sparse Byte :=
  Sparse.putBytes m a (leBytes n v)

/-- Bits `hi` to `lo` of a number. -/
def nbits (v hi lo : Nat) : Nat :=
  v / 2 ^ lo % 2 ^ (hi + 1 - lo)

/-- Bit `i` of a number. -/
def nbit (v i : Nat) : Bool :=
  v / 2 ^ i % 2 == 1

/-- Boolean to number. -/
def b2n (b : Bool) : Nat :=
  if b then 1 else 0

/-- The signed value of the low `w` bits of a number. -/
def signed (w v : Nat) : Int :=
  if v % 2 ^ w < 2 ^ (w - 1) then (v % 2 ^ w : Nat) else ((v % 2 ^ w : Nat) : Int) - (2 ^ w : Nat)

/-- The low `w` bits of the two's complement of an integer. -/
def wrapInt (w : Nat) (i : Int) : Nat :=
  (i % (2 ^ w : Nat)).toNat

/-! ### Ring indices -/

/-- The lap phase of an index in a ring of `2^log2` slots (R344, R391). -/
def phaseOf (idx : Word) (log2 : Nat) : Nat :=
  idx.toNat / 2 ^ log2 % 2

/-- Entries between two 32-bit indices (R343). -/
def idxDiff (a b : Word) : Nat :=
  (a - b).toNat

/-- Host address of ring slot `i` of size `e` (R389). -/
def slotAddr (lo hi : Word) (e log2 : Nat) (i : Word) : Nat :=
  lo.toNat / 64 * 64 + hi.toNat * 2 ^ 32 + e * (i.toNat % 2 ^ log2)

end Sys2Proof.Machine
end

