-- ==== Sys2Proof/Machine/Ops.lean ====
section
/-!
DEFINITION. The shared operations: reading and writing the registers and counters of a window, raising an
event into an ordered write stream (R399, R403), sending vectors (R408), channel modes (R53) and the activation
state (R144).
-/

namespace Sys2Proof.Machine

open Sys2Proof

/-- What a command answers. -/
abbrev Out := Host.Outcome State Fault Refusal

/-- One channel with the Headland: what a command on a channel may read and change (R32). `ecc` is what the ECC finds
in the command's reads of the cell table (R315). -/
structure Cx where
  id  : ChanId
  ch  : Chan
  hl  : Headland
  ecc : EccFault := .none
  deriving DecidableEq, Repr

/-- The view of one channel with the Headland. -/
def State.view (s : State) (c : ChanId) : Cx :=
  ⟨c, s.chans[c], s.hl, .none⟩

/-- Put a channel's view back. No other channel changes (R32). -/
def State.putView (s : State) (c : ChanId) (cx : Cx) : State :=
  { s with chans := s.chans.set c cx.ch, hl := cx.hl }

/-- Change one channel and the Headland. -/
def State.modChan (s : State) (c : ChanId) (f : Cx → Cx) : State :=
  s.putView c (f (s.view c))

/-- Change every channel in turn. -/
def State.overChans (s : State) (f : Cx → Cx) : List ChanId → State
  | [] => s
  | c :: cs => (s.modChan c f).overChans f cs

/-! ### Headland registers and counters -/

def Headland.get (h : Headland) (off : Nat) : Word :=
  Sparse.get hlReset h.regs off

def Headland.put (h : Headland) (off : Nat) (w : Word) : Headland :=
  { h with regs := Sparse.set hlReset h.regs off w }

def Headland.fld (h : Headland) (off : Nat) (f : Field) : Nat :=
  getF (h.get off) f

def Headland.flg (h : Headland) (off : Nat) (f : Field) : Bool :=
  getB (h.get off) f

def Headland.setf (h : Headland) (off : Nat) (f : Field) (v : Nat) : Headland :=
  h.put off (setF (h.get off) f v)

/-- The value of a Headland counter. -/
def Headland.cnt (h : Headland) (off : Nat) : DWord :=
  Sparse.get zeroCnt h.cnts off

/-- Add to a Headland counter, wrapping at 2^64. -/
def Headland.add (h : Headland) (off n : Nat) : Headland :=
  { h with cnts := Sparse.set zeroCnt h.cnts off (h.cnt off + BitVec.ofNat 64 n) }

def Headland.inc (h : Headland) (off : Nat) : Headland :=
  h.add off 1

/-- A channel reset of the channel runs: its REQ bit reads 1 (R636). -/
def Headland.resetRuns (h : Headland) (c : Nat) : Bool :=
  h.flg Reg.HL_RST_CHAN_LO ⟨c, 1⟩

/-- Outputs are at their device reset state: in the device reset and while TEST_EN is 1 (R624, R625).
(DEDUCED, log entry 21) -/
def Headland.outputsReset (h : Headland) : Bool := h.pins.testEn || h.pins.resetHeld

/-- A command on the Headland or on the whole block. While the device reset is held nothing happens (R634).
(DESIGN CHOICE, log entry 6) -/
def State.alive (s : State) (f : State → State) : Out :=
  .next (if s.hl.pins.resetHeld then s else f s)

/-- Answer a target access that is in error: a read returns zero (R593, R634). -/
def State.answerErr (s : State) : State :=
  { s with hl := { s.hl with pins := { s.hl.pins with rsp := some (0, true) } } }

/-- A target access. While the device reset is held it is answered with an error, and a write is discarded (R634). While
TEST_EN is 1, HP_T_READY is 0 and none is taken (R624, R625). -/
def State.access (s : State) (f : State → State) : Out :=
  .next (if s.hl.pins.resetHeld then s.answerErr else if s.hl.pins.testEn then s else f s)

/-- A command on one channel. During its channel reset nothing happens in it (R75).
(DESIGN CHOICE, log entries 6 and 7) -/
def State.onChan (s : State) (c : ChanId) (f : Cx → Cx) : Out :=
  s.alive fun s => if s.hl.resetRuns c then s else s.modChan c f

/-- A command on one channel in whose reads of the cell table the ECC finds `ecc` (R315). -/
def State.onChanEcc (s : State) (c : ChanId) (ecc : EccFault) (f : Cx → Cx) : Out :=
  s.onChan c fun cx => f { cx with ecc := ecc }

/-- A command on the Headland alone. (DESIGN CHOICE, log entry 6) -/
def State.onHl (s : State) (f : Headland → Headland) : Out :=
  s.alive fun s => { s with hl := f s.hl }

/-! ### Channel registers and counters -/

def Chan.get (c : Chan) (off : Nat) : Word :=
  Sparse.get chReset c.regs off

def Chan.put (c : Chan) (off : Nat) (w : Word) : Chan :=
  { c with regs := Sparse.set chReset c.regs off w }

def Chan.fld (c : Chan) (off : Nat) (f : Field) : Nat :=
  getF (c.get off) f

def Chan.flg (c : Chan) (off : Nat) (f : Field) : Bool :=
  getB (c.get off) f

def Chan.setf (c : Chan) (off : Nat) (f : Field) (v : Nat) : Chan :=
  c.put off (setF (c.get off) f v)

def Chan.cnt (c : Chan) (off : Nat) : DWord :=
  Sparse.get zeroCnt c.cnts off

/-- Add to a channel counter, wrapping at 2^64 (R140). -/
def Chan.add (c : Chan) (off n : Nat) : Chan :=
  { c with cnts := Sparse.set zeroCnt c.cnts off (c.cnt off + BitVec.ofNat 64 n) }

def Cx.get (cx : Cx) (off : Nat) : Word :=
  cx.ch.get off

def Cx.put (cx : Cx) (off : Nat) (w : Word) : Cx :=
  { cx with ch := cx.ch.put off w }

def Cx.fld (cx : Cx) (off : Nat) (f : Field) : Nat :=
  cx.ch.fld off f

def Cx.flg (cx : Cx) (off : Nat) (f : Field) : Bool :=
  cx.ch.flg off f

def Cx.setf (cx : Cx) (off : Nat) (f : Field) (v : Nat) : Cx :=
  { cx with ch := cx.ch.setf off f v }

def Cx.add (cx : Cx) (off n : Nat) : Cx :=
  { cx with ch := cx.ch.add off n }

def Cx.inc (cx : Cx) (off : Nat) : Cx :=
  cx.add off 1

/-- Change the Headland. -/
def Cx.onHl (cx : Cx) (f : Headland → Headland) : Cx :=
  { cx with hl := f cx.hl }

/-- Apply an operation when a condition holds. -/
def Cx.when (cx : Cx) (b : Bool) (f : Cx → Cx) : Cx :=
  if b then f cx else cx

def Headland.when (h : Headland) (b : Bool) (f : Headland → Headland) : Headland :=
  if b then f h else h

/-! ### Time of a channel (R413, R426) -/

/-- Short time of the STU (R27). -/
def Headland.shortTime (h : Headland) : Word :=
  BitVec.ofNat 32 h.stu.tick.toNat

/-- The phase offset O in units of 2^-16 ns, as the 64 bits of CH_TU_PHASE. -/
def Chan.phase (c : Chan) : Nat :=
  (c.get Reg.CH_TU_PHASE_LO).toNat + 2 ^ 32 * (c.get Reg.CH_TU_PHASE_HI).toNat

/-- The channel's time in units of 2^-16 ns: the tick count plus O (R426). -/
def Cx.time16 (cx : Cx) : Nat :=
  (cx.hl.stu.tick.toNat * 65536 + cx.hl.stu.frac / 2 ^ 32 + (signed 64 cx.ch.phase + 2 ^ 80).toNat) % 2 ^ 80

/-- The channel's time in the form of R413, truncated to eighths of a ns. -/
def Cx.time8 (cx : Cx) : DWord :=
  BitVec.ofNat 64 (cx.time16 / 2 ^ 13)

/-- Channel short time (R27). -/
def Cx.shortTime (cx : Cx) : Word :=
  BitVec.ofNat 32 (cx.time16 / 65536)

/-- Short time `a` is before `b` (R414). -/
def shortBefore (a b : Word) : Bool :=
  decide (2 ^ 31 ≤ (a - b).toNat)

/-! ### Modes (R53) -/

namespace ModeCode
def disabled : Nat := 1
def acquire : Nat := 2
def service : Nat := 3
def stop : Nat := 4
def halted : Nat := 5
def handover : Nat := 6
end ModeCode

/-- The channel's mode, from the always-on copy, which also shows Stop (R54). -/
def Chan.mode (c : Chan) : Nat :=
  c.fld Reg.CH_PWR_STATUS F.CH_PWR_STATUS_MODE

def Cx.mode (cx : Cx) : Nat :=
  cx.ch.mode

/-- Enter a mode: CH_MODE.MODE and its always-on copy (R53). In Stop the core island clock is stopped,
so CH_MODE reads zero (R54). HO_ROLE is none outside Handover (R55). A channel that enters Handover or Halted needs a
reset before it can be designated fallow (R550). Outside Acquire and Service the present second is not monitored
(R579). -/
def Chan.setMode (c : Chan) (m : Nat) : Chan :=
  let c := (c.setf Reg.CH_MODE F.CH_MODE_MODE (if m = ModeCode.stop then 0 else m)).setf
    Reg.CH_PWR_STATUS F.CH_PWR_STATUS_MODE m
  let c := if m = ModeCode.handover then c else c.setf Reg.CH_MODE F.CH_MODE_HO_ROLE 0
  let c := if m = ModeCode.handover ∨ m = ModeCode.halted then { c with fm := { c.fm with clean := false } } else c
  if m = ModeCode.acquire ∨ m = ModeCode.service then c else { c with pm := { c.pm with mon := false } }

def Cx.setMode (cx : Cx) (m : Nat) : Cx :=
  { cx with ch := cx.ch.setMode m }

/-- The core island clock is stopped, as in Stop of both variants (R42, R54). -/
def Chan.coreStopped (c : Chan) : Bool :=
  c.pwr.clkOff

/-- The mode is one of those given. -/
def Chan.modeIn (c : Chan) (ms : List Nat) : Bool :=
  ms.contains c.mode

def Cx.modeIn (cx : Cx) (ms : List Nat) : Bool :=
  cx.ch.modeIn ms

/-- Handover roles (R55). -/
def Cx.hoRole (cx : Cx) : Nat := cx.fld Reg.CH_MODE F.CH_MODE_HO_ROLE

/-- The phase of the handover that runs (R534). -/
def Headland.hoPhase (h : Headland) : Nat := h.fld Reg.HL_FM_STATUS F.HL_FM_STATUS_HO_PHASE

/-! Results of a handover (R548). -/
namespace HoResult
def continue_ : Nat := 0
def doneService : Nat := 1
def doneAcquire : Nat := 2
def abortHost : Nat := 3
def abortReset : Nat := 4
def abortMover : Nat := 5
def abortStream : Nat := 6
def abortTarget : Nat := 7
def abortCheck : Nat := 8
end HoResult

/-- The target of a handover, in RESUME (R545). -/
def Cx.resuming (cx : Cx) : Bool :=
  cx.mode == ModeCode.handover && cx.hoRole == 2 && cx.hl.hoPhase == 5

/-- The channel is the source of a handover that has frozen it: what the Headland delivers to it is held for the
target (R543, R547). (DEDUCED, log entry 98) -/
def Cx.frozen (cx : Cx) : Bool :=
  match cx.hl.ho with
  | some ho => ho.src == cx.id.val && !ho.waking && decide (3 ≤ cx.hl.hoPhase)
  | none => false

/-- The channel is the source of a handover whose FREEZE has not ended (R536). -/
def Cx.preparing (cx : Cx) : Bool :=
  match cx.hl.ho with
  | some ho => ho.src == cx.id.val && decide (cx.hl.hoPhase ≤ 2)
  | none => false

/-- A handover names the channel as its source (R533). -/
def Cx.hoSource (cx : Cx) : Bool :=
  match cx.hl.ho with
  | some ho => ho.src == cx.id.val
  | none => false

/-- A fallow test of the channel runs (R551). -/
def Headland.tested (h : Headland) (c : Nat) : Bool :=
  h.testing.isSome && h.fld Reg.HL_FM_STATUS F.HL_FM_STATUS_FALLOW_CH == c

/-- The channel carries traffic: in Acquire or Service with its clock running, or as a target in RESUME. -/
def Cx.running (cx : Cx) : Bool :=
  !cx.ch.coreStopped && (cx.modeIn [ModeCode.acquire, ModeCode.service] || cx.resuming)

/-- What the channel had begun when a handover froze it still ends, before TRANSFER begins (R538, step 2). -/
def Cx.ending (cx : Cx) : Bool :=
  cx.mode == ModeCode.handover && cx.hoRole == 1 && cx.hl.hoPhase == 3

/-- Reassembly and transmit storage that have begun go on. -/
def Cx.finishing (cx : Cx) : Bool := cx.running || cx.ending

/-- A register write to an area of the core island (R45): while the core clock is stopped it is discarded
and counted (R46), and in Halted it is discarded (R67). -/
def Cx.coreWrite (cx : Cx) (f : Cx → Cx) : Cx :=
  if cx.ch.coreStopped then cx.inc Cnt.CH_CNT_PWR_STOPPED_ACCESS
  else if cx.mode = ModeCode.halted then cx
  else f cx

/-- A register write to the always-on area of a channel (R45), discarded in Halted (R67). -/
def Cx.aonWrite (cx : Cx) (f : Cx → Cx) : Cx :=
  if cx.mode = ModeCode.halted then cx else f cx

/-- A register write to the core island of a channel. -/
def State.coreWrite (s : State) (c : ChanId) (f : Cx → Cx) : Out :=
  s.access fun s => if s.hl.resetRuns c then s else s.modChan c fun cx => cx.coreWrite f

/-- A register write to the core island of a channel, in whose reads of the cell table the ECC finds an error (R315). -/
def State.coreWriteEcc (s : State) (c : ReadBy) (f : Cx → Cx) : Out :=
  s.coreWrite c.chan fun cx => f { cx with ecc := c.ecc }

/-- A register write to the always-on area of a channel. -/
def State.aonWrite (s : State) (c : ChanId) (f : Cx → Cx) : Out :=
  s.access fun s => if s.hl.resetRuns c then s else s.modChan c fun cx => cx.aonWrite f

/-- A register write to the Headland window. -/
def State.hlWrite (s : State) (f : Headland → Headland) : Out :=
  s.access fun s => { s with hl := f s.hl }

/-- The idle timer restarts (R469). -/
def Cx.idleRestart (cx : Cx) : Cx :=
  cx.setf Reg.CH_PWR_STATUS F.CH_PWR_STATUS_IDLE_EXPIRED 0

/-! ### Vectors and streams -/

/-- Send a vector message (R408): a masked vector becomes pending instead. -/
def Headland.sendVector (h : Headland) (v : Nat) : Headland :=
  let m := if v < 32 then Reg.HL_VEC_MASK_LO else Reg.HL_VEC_MASK_HI
  let p := if v < 32 then Reg.HL_VEC_PEND_LO else Reg.HL_VEC_PEND_HI
  let b : Field := ⟨v % 32, 1⟩
  if h.flg m b then h.setf p b 1
  else { h.inc Cnt.HL_CNT_VEC_MSGS with pins := { h.pins with vecLast := some v } }

/-- Vector messages, watches and unwatches at the head of a list of items are sent, in order. -/
def drainMsgs : List StreamItem → Headland → List StreamItem × Headland
  | .vector v :: r, h => drainMsgs r (h.sendVector v)
  | .watch l :: r, h => drainMsgs r { h with pins := { h.pins with watchLast := some (l, true) } }
  | .unwatch l :: r, h => drainMsgs r { h with pins := { h.pins with watchLast := some (l, false) } }
  | l, h => (l, h)

/-- Vector messages, watches and unwatches expect no response (R655): those at the head of a stream leave it at once. While
TEST_EN is 1 the port issues nothing (R624). -/
def drainHead (l : List StreamItem) (h : Headland) : List StreamItem × Headland :=
  if h.pins.testEn then (l, h) else drainMsgs l h

/-- Append an item to the channel's ordered write stream (R398). A closed stream takes nothing
(R75 step 2). -/
def Cx.push (cx : Cx) (i : StreamItem) : Cx :=
  if cx.ch.stream.closed then cx
  else
    let r := drainHead (cx.ch.stream.items ++ [i]) cx.hl
    { cx with ch := { cx.ch with stream := { cx.ch.stream with items := r.1 } }, hl := r.2 }

/-- The Headland stream's writes are discarded after a fatal error on it (R590). -/
def Headland.fatal (h : Headland) : Bool :=
  h.flg Reg.HL_HP_STATUS F.HL_HP_STATUS_HL_FATAL

/-- The sources of records in a list of items stop being pending (R403). (DEDUCED, log entry 68) -/
def Headland.endPending (h : Headland) : List StreamItem → Headland
  | [] => h
  | .event r :: l => (h.setf (Reg.HL_EVSRC r.source) F.HL_EVSRC_PENDING 0).endPending l
  | _ :: l => h.endPending l

/-- Append an item to the Headland's write stream. After a fatal error the item is discarded and counted, and a
record's source is no longer pending (R403, R590). (DEDUCED, log entry 68) -/
def Headland.push (h : Headland) (i : StreamItem) : Headland :=
  if h.fatal then (h.endPending [i]).inc Cnt.HL_CNT_HP_HL_DISCARD
  else
    let r := drainHead (h.stream.items ++ [i]) h
    { r.2 with stream := { h.stream with items := r.1 } }

/-- Bytes of one data write: it does not cross a 256 B boundary (R585). -/
def splitWrites (kind : WrKind) : Nat → Nat → List Byte → List StreamItem
  | 0, _, _ => []
  | _, _, [] => []
  | fuel + 1, a, bs =>
    let n := 256 - a % 256
    .data kind (BitVec.ofNat 64 a) (bs.take n) :: splitWrites kind fuel (a + n) (bs.drop n)

def Cx.pushAll (cx : Cx) (is : List StreamItem) : Cx :=
  is.foldl Cx.push cx

def Headland.pushAll (h : Headland) (is : List StreamItem) : Headland :=
  is.foldl Headland.push h

/-- Write bytes to host memory at `a` on the channel's stream. -/
def Cx.hostWrite (cx : Cx) (kind : WrKind) (a : Nat) (bs : List Byte) : Cx :=
  cx.pushAll (splitWrites kind (bs.length + 1) a bs)

/-- Write bytes to host memory at `a` on the Headland's stream. -/
def Headland.hostWrite (h : Headland) (kind : WrKind) (a : Nat) (bs : List Byte) : Headland :=
  h.pushAll (splitWrites kind (bs.length + 1) a bs)

/-! ### Events (R399, R403) -/

/-- The record of a source in a list of stream items. -/
def findEvent (src : Nat) : List StreamItem → Option EvRec
  | [] => none
  | .event r :: l => if r.source = src then some r else findEvent src l
  | _ :: l => findEvent src l

/-- The items without the record of a source. -/
def dropEvent (src : Nat) (l : List StreamItem) : List StreamItem :=
  l.filter fun i => match i with
    | .event r => r.source != src
    | _ => true

/-- Number of deferred records of a ring, kept in HL_EVR_STAT.DEFERRED (R405). -/
def Headland.syncDeferred (h : Headland) (ring : Nat) : Headland :=
  h.setf (Reg.HL_EVR_STAT ring) F.HL_EVR_STAT_DEFERRED
    (h.deferred.filter (fun r => r.ring == ring)).length

/-- A new record of a source, as R403 creates it. -/
def Headland.newRec (h : Headland) (src : Nat) (detail : Word) : EvRec :=
  ⟨src, h.fld (Reg.HL_EVSRC src) F.HL_EVSRC_RING, 1, detail, h.stu.tick⟩

/-- A further occurrence merged into a pending record (R403). -/
def Headland.merge (h : Headland) (r : EvRec) (detail : Word) : EvRec :=
  { r with count := min 255 (r.count + 1), detail := detail, tick := h.stu.tick }

/-- Raise a source of the Headland: its record enters the Headland stream (R399, R403). -/
def Headland.raise (h : Headland) (src : Nat) (detail : Nat) : Headland :=
  let d := BitVec.ofNat 32 detail
  if h.flg (Reg.HL_EVSRC src) F.HL_EVSRC_EN = false then h
  else if h.flg (Reg.HL_EVSRC src) F.HL_EVSRC_PENDING = false then
    (h.setf (Reg.HL_EVSRC src) F.HL_EVSRC_PENDING 1).push (.event (h.newRec src d))
  else match findEvent src h.stream.items with
    | some r =>
      (({ h with stream := { h.stream with items := dropEvent src h.stream.items } } : Headland).inc
        Cnt.HL_CNT_EV_COALESCED).push (.event (h.merge r d))
    | none => match h.deferred.find? (fun r => r.source == src) with
      | some r =>
        ((({ h with deferred := h.deferred.filter (fun x => x.source != src) } : Headland).syncDeferred
          r.ring).inc Cnt.HL_CNT_EV_COALESCED).push (.event (h.merge r d))
      | none => h

/-- Raise channel source `src` on the channel's stream, or on the Headland's (R399, R403). A stream that a channel reset
has closed takes no record (R75). -/
def Cx.raiseOn (cx : Cx) (viaHl : Bool) (src : Nat) (detail : Nat) : Cx :=
  let h := cx.hl
  let d := BitVec.ofNat 32 detail
  let out (cx : Cx) (r : EvRec) : Cx :=
    if viaHl then cx.onHl (fun h => h.push (.event r)) else cx.push (.event r)
  if h.flg (Reg.HL_EVSRC src) F.HL_EVSRC_EN = false ∨ (!viaHl && cx.ch.stream.closed) then cx
  else if h.flg (Reg.HL_EVSRC src) F.HL_EVSRC_PENDING = false then
    out (cx.onHl fun h => h.setf (Reg.HL_EVSRC src) F.HL_EVSRC_PENDING 1) (h.newRec src d)
  else
    let cleared : Cx :=
      { cx with
        ch := { cx.ch with stream := { cx.ch.stream with items := dropEvent src cx.ch.stream.items } }
        hl := { h with
          stream := { h.stream with items := dropEvent src h.stream.items }
          deferred := h.deferred.filter (fun x => x.source != src) } }
    match findEvent src cx.ch.stream.items with
    | some r => out (cleared.onHl fun h => h.inc Cnt.HL_CNT_EV_COALESCED) (h.merge r d)
    | none => match findEvent src h.stream.items with
      | some r => out (cleared.onHl fun h => h.inc Cnt.HL_CNT_EV_COALESCED) (h.merge r d)
      | none => match h.deferred.find? (fun r => r.source == src) with
        | some r =>
          out (cleared.onHl fun h => (h.syncDeferred r.ring).inc Cnt.HL_CNT_EV_COALESCED) (h.merge r d)
        | none => cx

/-- Raise the channel's event `k` (R401). It goes by the Headland while the core clock is stopped
(R399). -/
def Cx.raise (cx : Cx) (k : Nat) (detail : Nat) : Cx :=
  cx.raiseOn cx.ch.coreStopped (24 * cx.id.val + k) detail

/-! Channel event numbers (R401). -/
namespace Ev
def halt : Nat := 0
def config : Nat := 1
def ringFault : Nat := 2
def cplStall : Nat := 3
def rogueGuard : Nat := 4
def stageEcc : Nat := 5
def activation : Nat := 6
def sheaf : Nat := 7
def clsFault : Nat := 8
def grFault : Nat := 9
def gleanDone : Nat := 10
def tsOverflow : Nat := 11
def dsSync : Nat := 12
def stopEntered : Nat := 13
def wake : Nat := 14
def stopRefused : Nat := 15
def sealFail : Nat := 16
def bankRetired : Nat := 17
def eccWear : Nat := 18
def perf : Nat := 19
def drill : Nat := 20
def drillLate : Nat := 21
def tsAvail : Nat := 22
/-- Headland sources (R402). -/
def chanResetDone : Nat := 408
def accessTimeout : Nat := 409
def wedge : Nat := 410
def handover : Nat := 411
def moverDone : Nat := 412
def moverHalt : Nat := 420
def dvfsReject : Nat := 428
def budget : Nat := 429
def servo : Nat := 430
def timeSource : Nat := 431
def mailbox : Nat := 432
def log : Nat := 433
def firmware : Nat := 434
def thermal : Nat := 435
def voltage : Nat := 436
def ageing : Nat := 437
def fallow : Nat := 438
def streamAbandon : Nat := 439
def capture : Nat := 440
def hlDrill : Nat := 448
def hlDrillLate : Nat := 464
def hostPortErr : Nat := 465
def evrFull : Nat := 466
end Ev

/-! Reasons of FALLOW, source 438 (R551). -/
namespace FallowReason
def designated : Nat := 1
def testPass : Nat := 2
def testFail : Nat := 3
def advise : Nat := 4
def used : Nat := 5
end FallowReason

/-- Raise FALLOW for a channel (R551). -/
def Headland.fallowEvent (h : Headland) (c reason : Nat) : Headland :=
  h.raise Ev.fallow (c + reason * 2 ^ 8)

/-- WINDOW_S in seconds; 0 acts as 1 (R525). (DEDUCED, log entry 101) -/
def Headland.wearWindow (h : Headland) : Nat := max 1 (h.fld Reg.HL_FM_WEAR_CFG F.HL_FM_WEAR_CFG_WINDOW_S)

/-- The channel's configuration event, with the offset written (R401). (DEDUCED, log entry 16) -/
def Cx.configEvent (cx : Cx) (off : Nat) : Cx :=
  cx.raise Ev.config (off % 65536)

/-- Discard the pending event records of a list of items, each counted and its source no longer pending
(R406). (DEDUCED, log entry 28) -/
def Headland.discardEvents (h : Headland) : List StreamItem → Headland
  | [] => h
  | .event r :: l =>
    ((h.setf (Reg.HL_EVSRC r.source) F.HL_EVSRC_PENDING 0).inc Cnt.HL_CNT_EV_DISCARD).discardEvents l
  | _ :: l => h.discardEvents l

/-! Kinds of log records (R574). -/
namespace LogKind
def boot : Nat := 1
def fwActivate : Nat := 2
def fwRestart : Nat := 3
def halt : Nat := 4
def chanReset : Nat := 5
def activation : Nat := 6
def bankRetired : Nat := 7
def handover : Nat := 8
def sensorAlarm : Nat := 9
def wedge : Nat := 10
def uat : Nat := 11
def command : Nat := 12
end LogKind

/-- Firmware is to write a log record (R574); its data are 32-bit words. Channel 0x1F stands for none. -/
def Headland.logDue (h : Headland) (kind chan : Nat) (ws : List Nat) : Headland :=
  { h with mb := { h.mb with logDue := h.mb.logDue ++ [⟨kind, chan, ws.flatMap (leBytes 4)⟩] } }

def Cx.logDue (cx : Cx) (kind : Nat) (ws : List Nat) : Cx :=
  cx.onHl fun h => h.logDue kind cx.id.val ws

/-! Notice codes (R557). -/
namespace Notice
def activation : Nat := 0x8001
def copy : Nat := 0x8002
def key : Nat := 0x8003
def firmware : Nat := 0x8004
def pm : Nat := 0x8005
end Notice

def Headland.setMb (h : Headland) (m : Mailbox) : Headland := { h with mb := m }

/-! ### The mailbox ring (R557, R558) -/

def Headland.rspSize (h : Headland) : Nat := 2 ^ h.fld Reg.HL_MB_RSP_CTL F.HL_MB_RSP_CTL_SIZE_LOG2

/-- The mailbox ring is enabled and has a free slot. -/
def Headland.rspFree (h : Headland) : Bool :=
  h.flg Reg.HL_MB_RSP_CTL F.HL_MB_RSP_CTL_EN &&
    decide (idxDiff (h.get Reg.HL_MB_RSP_PROD) (h.get Reg.HL_MB_RSP_CONS) < h.rspSize)

/-- The bytes of a record (R557). -/
def Note.bytes (n : Note) (lost : Bool) (own : Nat) : List Byte :=
  leBytes 4 (n.code % 2 ^ 16 + n.chan % 32 * 2 ^ 16 + b2n n.notice * 2 ^ 21 + b2n lost * 2 ^ 22 + own * 2 ^ 31) ++
    leBytes 4 (n.status % 256) ++ leBytes 4 n.tag.toNat ++ leBytes 4 0 ++ leBytes 8 n.tick.toNat ++
    (n.data ++ List.replicate 40 0).take 40

/-- Write a record into the ring's next slot, and raise MAILBOX behind it (R558, R399). -/
def Headland.noteWrite (h : Headland) (n : Note) : Headland :=
  let log2 := h.fld Reg.HL_MB_RSP_CTL F.HL_MB_RSP_CTL_SIZE_LOG2
  let p := h.get Reg.HL_MB_RSP_PROD
  let lost := n.notice && h.mb.lost
  let a := slotAddr (h.get Reg.HL_MB_RSP_BASE_LO) (h.get Reg.HL_MB_RSP_BASE_HI) 64 log2 p
  let h := h.hostWrite .mailbox a (n.bytes lost (phaseOf p log2))
  let h := h.put Reg.HL_MB_RSP_PROD (p + 1)
  let h := if lost then h.setMb { h.mb with lost := false } else h
  h.raise Ev.mailbox (n.code % 2 ^ 16 + b2n n.notice * 2 ^ 16)

/-- Waiting records are written while slots are free. -/
def Headland.noteDrain (h : Headland) : Nat → Headland
  | 0 => h
  | k + 1 => match h.mb.notes with
    | [] => h
    | n :: l => if h.rspFree then ((h.setMb { h.mb with notes := l }).noteWrite n).noteDrain k else h

/-- Post a record (R558): a notice that finds 256 waiting is discarded. -/
def Headland.post (h : Headland) (n : Note) : Headland :=
  if n.notice && decide (256 ≤ h.mb.notes.length) then
    (h.setMb { h.mb with lost := true }).inc Cnt.HL_CNT_MB_NOTICE_DROP
  else
    let h := h.setMb { h.mb with notes := h.mb.notes ++ [n] }
    h.noteDrain (h.mb.notes.length)

/-- Post a notice with its DATA words. -/
def Headland.notice (h : Headland) (code chan : Nat) (ws : List Nat) : Headland :=
  h.post ⟨true, code, chan, 0, 0, h.stu.tick, ws.flatMap (leBytes 4)⟩

/-! ### The activation state (R144, R145, R160, R171) -/

/-! Activation states (R144). -/
namespace Act
def off : Nat := 0
def initial : Nat := 1
def serialNumber : Nat := 2
def ranging : Nat := 3
def operation : Nat := 4
def lods : Nat := 5
def emergencyStop : Nat := 6
def fastReentry : Nat := 7
end Act

/-! REC_STATE of an identity record (R160). -/
namespace Rec
def empty : Nat := 0
def serial : Nat := 1
def registered : Nat := 2
def stopped : Nat := 3
end Rec

/-- Bytes of an identity record. -/
def recSize : Nat := 12288

/-- `n` little-endian bytes of a channel's identity record (R160). -/
def Headland.idLe (h : Headland) (c off n : Nat) : Nat := Sparse.le h.ident (recSize * c + off) n

def Cx.idLe (cx : Cx) (off n : Nat) : Nat := cx.hl.idLe cx.id.val off n
def Cx.recState (cx : Cx) : Nat := cx.idLe 0 1
def Cx.idGen (cx : Cx) : Nat := cx.idLe 2 2

def Cx.actState (cx : Cx) : Nat := cx.fld Reg.CH_ACT_STATUS F.CH_ACT_STATUS_STATE

/-- The channel is halted for a fatal host error: its own stream is abandoned (R68). -/
def Cx.streamGone (cx : Cx) : Bool :=
  cx.mode == ModeCode.halted && getF (cx.get Reg.CH_HALT_CAUSE) F.CH_HALT_CAUSE_CAUSE == 4

/-- The activation state is reported: event, notice and log record (R171, R172, R557, R574). -/
def Cx.actReport (cx : Cx) (old new : Nat) : Cx :=
  let cx := cx.raiseOn (cx.ch.coreStopped || cx.streamGone) (24 * cx.id.val + Ev.activation) (new + old * 16)
  let w := new + old * 16 + cx.fld Reg.CH_ACT_STATUS F.CH_ACT_STATUS_TERMINAL_ID * 2 ^ 8 +
    b2n (new == Act.initial && cx.recState == Rec.empty) * 2 ^ 18
  let g := cx.idGen
  cx.onHl fun h => (h.notice Notice.activation cx.id.val [w, g]).logDue LogKind.activation cx.id.val [w, g]

/-- Enter an activation state. The serial-number response is armed in SERIAL_NUMBER, when the record holds a
serial number (R152). OFF stops TO1 and TO2 (R145). -/
def Cx.setAct (cx : Cx) (new : Nat) : Cx :=
  let old := cx.actState
  let cx := cx.when (new == Act.off) fun cx =>
    { cx with ch := { cx.ch with act := { cx.ch.act with to1 := false, to2 := false } } }
  let arm := new == Act.serialNumber && (cx.recState == Rec.serial || cx.recState == Rec.registered)
  let cx := (cx.setf Reg.CH_ACT_STATUS F.CH_ACT_STATUS_STATE new).setf
    Reg.CH_ACT_STATUS F.CH_ACT_STATUS_SN_ARMED (b2n arm)
  if old = new then cx else cx.actReport old new

end Sys2Proof.Machine
end

