-- ==== Sys2Proof/Machine/Stored.lean ====
section
/-!
DEFINITION. What is stored of a frame and what a delivery shows of it: the cell table and the chain of a frame's
cells (R314, R315), its bytes, its length at a destination, and the lanes of the frame port with their metadata.
-/

namespace Sys2Proof.Machine

open Sys2Proof

/-! ### Cells -/

/-- Cells of a G16 channel (R312). -/
def numCells : Nat := 12288

/-- CONTEXT address of a cell table entry (R506). -/
def cellAddr (i : Nat) : Nat := 0x14E400 + 4 * i

/-- A cell table entry (R315). -/
structure Cell where
  next  : Nat
  last  : Bool
  alloc : Bool
  owner : Nat
  refs  : Nat
  lost  : Bool
  head  : Bool
  deriving DecidableEq, Repr

/-- Read an entry from its word (R315). -/
def Cell.ofNat (e : Nat) : Cell :=
  ⟨nbits e 13 0, nbit e 14, nbit e 15, nbits e 19 16, nbits e 21 20, nbit e 22, nbit e 23⟩

/-- The word of an entry (R315). (DEDUCED, log entry 60) -/
def Cell.toNat (c : Cell) : Nat :=
  c.next % 2 ^ 14 + b2n c.last * 2 ^ 14 + b2n c.alloc * 2 ^ 15 + c.owner % 16 * 2 ^ 16 +
    c.refs % 4 * 2 ^ 20 + b2n c.lost * 2 ^ 22 + b2n c.head * 2 ^ 23

/-- The entry of a cell that has just been granted (R317). -/
def Cell.granted (owner : Nat) : Cell := ⟨0, true, true, owner, 1, false, false⟩

def Cx.cell (cx : Cx) (i : Nat) : Cell :=
  Cell.ofNat (Sparse.le cx.ch.ctxm (cellAddr i) 4)

def Cx.setCell (cx : Cx) (i : Nat) (c : Cell) : Cx :=
  { cx with ch := { cx.ch with ctxm := Sparse.putLe cx.ch.ctxm (cellAddr i) 4 c.toNat } }

/-- An entry that contradicts itself (R334). -/
def Cell.inconsistent (c : Cell) : Bool :=
  if c.alloc then
    c.refs == 0 || c.owner == 0 || c.owner == 7 || decide (9 ≤ c.owner) ||
      (!c.last && decide (numCells ≤ c.next))
  else c.owner != 0 || c.refs != 0 || c.lost

/-- The cells of a chain from its head, and whether it ends within the fuel, with no inconsistent entry before its
end (R314, R334). -/
def Cx.chainFrom (cx : Cx) : Nat → Nat → List Nat × Bool
  | 0, _ => ([], false)
  | f + 1, i =>
    let c := cx.cell i
    if c.inconsistent then ([i], false)
    else if c.last then ([i], true)
    else if numCells ≤ c.next then ([i], false)
    else let r := cx.chainFrom f c.next
         (i :: r.1, r.2)

/-- The bytes of a stored frame (R314). -/
def Cx.frameBytes (cx : Cx) (head len : Nat) : List Byte :=
  ((cx.chainFrom 63 head).1.flatMap fun i => Sparse.bytes cx.ch.buf (256 * i) 256).take len

/-! ### Deliveries -/

/-- Bytes that a delivery writes, W of R371. -/
def Cx.deliverLen (cx : Cx) (f : Frame) (trunc : Bool) : Nat :=
  let strip := cx.flg Reg.CH_RX_CFG F.CH_RX_CFG_STRIP_FCS && f.hasFcs && decide (4 < f.len)
  let l := if strip then f.len - 4 else f.len
  if trunc then min 128 l else l

/-- The deliveries waiting in a frame-port lane. -/
def Cx.lane (cx : Cx) (n : Nat) : List FpDeliv := Sparse.get (fun _ => []) cx.ch.lanes n
def Cx.setLane (cx : Cx) (n : Nat) (l : List FpDeliv) : Cx :=
  { cx with ch := { cx.ch with lanes := Sparse.set (fun _ => []) cx.ch.lanes n l } }

def Cx.fpEn (cx : Cx) : Bool := cx.flg Reg.CH_PORT_CFG F.CH_PORT_CFG_FP_EN

/-- FPO_META (R607); `ends` is its last halfword, ABORTED and CELL_ERR. -/
def Cx.fpoMeta (cx : Cx) (lane : Nat) (d : FpDeliv) (ends : Nat) : List Byte :=
  let f := d.frame
  leBytes 4 (cx.deliverLen f d.trunc % 2 ^ 14 + lane % 16 * 2 ^ 14 + b2n f.up * 2 ^ 18 + b2n d.mirror * 2 ^ 19 +
      b2n d.trunc * 2 ^ 20 + f.ftype % 8 * 2 ^ 21) ++
    leBytes 4 (f.port % 2 ^ 16 + f.ctx % 2 ^ 14 * 2 ^ 16) ++ leBytes 4 (f.mark % 2 ^ 16 + f.rule % 2 ^ 13 * 2 ^ 16) ++
    leBytes 4 0 ++ leBytes 8 f.ts.toNat ++ leBytes 6 0 ++ leBytes 2 ends

/-- FPO_VALID may be 1 between SOP and EOP: the port is enabled and the channel carries traffic (R484, R613). -/
def Cx.fpoLive (cx : Cx) : Bool :=
  cx.fpEn && cx.running && !cx.flg Reg.CH_PWR_STATUS F.CH_PWR_STATUS_PAD_HELD

/-- A frame that has begun on the frame port output ends early, in the next cycle (R67, R75, R609): the bytes that have
left and one more. FP_OUT_FRAME is the end of a frame, so whether one has begun, on which lane, and how far, is free.
The memory of the Granary keeps what it held. (DESIGN CHOICE, log entry 119) -/
def Cx.fpoCut (cx : Cx) : Cx :=
  match if cx.fpoLive then Config.fpoBegun cx.id.val cx.hl.stu.tick else none with
  | none => cx
  | some n =>
    match cx.lane n with
    | [] => cx
    | d :: l =>
      let bytes := cx.frameBytes d.frame.cell (cx.deliverLen d.frame d.trunc)
      let out := bytes.take (Config.fpEnd cx.hl.stu.tick % (bytes.length + 1)) ++ [Config.freeByte 0]
      let m := cx.fpoMeta n d 1
      let cx := (cx.setLane n l).inc Cnt.CH_CNT_FP_OUT_ABORTED
      { cx with ch := { cx.ch with fpo := some (n, m, out) } }

end Sys2Proof.Machine
end

