-- ==== Sys2Proof/Machine/Halts.lean ====
section
/-!
DEFINITION. Halts (R62 to R68): their causes, and what the entry to Halted does.
-/

namespace Sys2Proof.Machine

open Sys2Proof

/-- Frames staged or partly sent that can no longer finish (R203). -/
def Chan.usLost (c : Chan) : Nat :=
  (c.us.bursts.map fun b => b.done.length).sum +
    (c.rings.txq.map fun e => (e.2.frames.filter fun f => decide (0 < f.sent)).length).sum

/-! ### Halts (R62 to R68) -/

/-! Halt cause codes (R62). -/
namespace Halt
def malformedDesc : Nat := 1
def retentionLost : Nat := 2
def brownOut : Nat := 3
def hostFatal : Nat := 4
def eccFatal : Nat := 5
def rogueTrip : Nat := 6
def granary : Nat := 7
end Halt

/-- The value of CH_HALT_CAUSE for a first cause (R63). -/
def haltCauseWord (cause detail : Nat) : Nat :=
  cause + 2 ^ (7 + cause) + detail % 65536 * 65536

/-- Where the halt history of a channel counts a cause (R638). -/
def haltsReg (c cause : Nat) : Nat :=
  if cause = 7 then Reg.HL_RST_HALTS7 c else Reg.HL_RST_HALTS c (cause - 1)

/-- Count up to 0xFFFF (R638). -/
def Headland.satInc16 (h : Headland) (off : Nat) : Headland :=
  h.setf off ⟨0, 16⟩ (min 65535 (h.fld off ⟨0, 16⟩ + 1))

/-- LANE_SEL and LANE_CLAIM as the channel drives them (R620, R623). -/
def Chan.laneOut (c : Chan) : Nat × Bool := (c.fld Reg.CH_LANE F.CH_LANE_LANE, c.flg Reg.CH_LANE F.CH_LANE_CLAIM)

/-- What the entry to Halted does at once beside recording the cause (R67, R203, R484, R625): the laser is
off, the burst in progress is cut short with what is staged, the hold cells latch the lane outputs as they show at the
pins, frame port ready falls, the clock runs (R42), the power sequencer is in Run (R465), and an orderly disable under way
ends with its work undone. -/
def Chan.haltPins (c : Chan) : Chan :=
  ({ c with
      us := { c.us with txEn := false, bld := false, bursts := [] }
      pwr := { c.pwr with clkOff := false, lane := some (c.pwr.lane.getD c.laneOut) }
      disabling := false } : Chan).put
    Reg.CH_PWR_STATUS
    (setF (setF (setF (c.get Reg.CH_PWR_STATUS) F.CH_PWR_STATUS_PAD_HELD 1) F.CH_PWR_STATUS_PHASE 0)
      F.CH_PWR_STATUS_REG_LP 0)

/-- A burst is in progress. -/
def Burst.live (b : Burst) : Bool := b.started && !b.off

/-- A burst in progress ends with EOB, in a last word that holds idle fill (R67, R75, R625). How many words the framer
has taken, and how that word is filled, is free. (DESIGN CHOICE, log entry 140) -/
def Cx.cutBurst (cx : Cx) : Cx :=
  match cx.ch.us.bursts.find? Burst.live with
  | none => cx
  | some b =>
    let out := b.built.out.take (64 * Config.usTaken cx.id.val cx.hl.stu.tick) ++ (List.range 64).map Config.freeByte
    { cx with ch := { cx.ch with us := { cx.ch.us with cut := some out } } }

/-- Abandon the channel's write stream (R68): its event records are discarded. (DEDUCED, log entry 28) -/
def Cx.abandonStream (cx : Cx) : Cx :=
  { cx with
    ch := { cx.ch with stream := { cx.ch.stream with items := [], tries := 0, issued := false } }
    hl := cx.hl.discardEvents cx.ch.stream.items }

/-- Enter Halted with a first cause (R62, R63, R66, R67, R68). (DEDUCED, log entry 29) -/
def Cx.enterHalted (cx : Cx) (cause detail : Nat) : Cx :=
  let w := haltCauseWord cause detail
  let cx := (cx.put Reg.CH_HALT_CAUSE (BitVec.ofNat 32 w)).put Reg.CH_HALT_TIME cx.hl.shortTime
  let cx := cx.add Cnt.CH_CNT_US_NOT_SENT cx.ch.usLost
  let cx := cx.fpoCut.cutBurst
  let cx := { cx with ch := (cx.ch.setMode ModeCode.halted).haltPins }
  let cx := cx.onHl fun h => (h.satInc16 (haltsReg cx.id.val cause)).logDue LogKind.halt cx.id.val
    [w, h.shortTime.toNat]
  let cx := if cause = Halt.hostFatal then
      cx.abandonStream.raiseOn true (24 * cx.id.val + Ev.halt) w
    else cx.raise Ev.halt w
  cx.setAct Act.off

/-- A halt cause arises (R62 to R65). In Halted it sets its SEEN bit only; in Disabled it is a fault
without a halt; in Stop only causes 0x02 and 0x03 halt. -/
def Cx.halt (cx : Cx) (cause detail : Nat) : Cx :=
  if cx.mode = ModeCode.halted then
    cx.put Reg.CH_HALT_CAUSE (cx.get Reg.CH_HALT_CAUSE ||| BitVec.ofNat 32 (2 ^ (7 + cause)))
  else if cx.mode = ModeCode.disabled then
    (cx.inc Cnt.CH_CNT_DISABLED_FAULT).raise Ev.halt (haltCauseWord cause detail + 32768)
  else if cx.mode = ModeCode.stop ∧ cause ≠ Halt.retentionLost ∧ cause ≠ Halt.brownOut then cx
  else cx.enterHalted cause detail

end Sys2Proof.Machine
end

