-- ==== Sys2Proof/Machine/Completions.lean ====
section
/-!
DEFINITION. Completion rings (R383 to R400): reservations, the hold queue, writing an entry, and the
consumer index.
-/

namespace Sys2Proof.Machine

open Sys2Proof

/-! Completion status values (R385). -/
namespace CplStatus
def ok : Nat := 0
def flushed : Nat := 1
def notSent : Nat := 2
def clsDrop : Nat := 3
def hostReadErr : Nat := 4
def cellErr : Nat := 5
def badFrame : Nat := 6
def malformed : Nat := 7
end CplStatus

/-- Reserved completions D_r of a ring (R393). -/
def Cx.owed (cx : Cx) (r : Nat) : Nat :=
  cx.fld (Reg.CH_CRING_STAT r) F.CH_CRING_STAT_OWED

/-- DEDUCED, log entry 67. -/
def Cx.crSize (cx : Cx) (r : Nat) : Nat :=
  2 ^ cx.fld (Reg.CH_CRING_CTL r) F.CH_CRING_CTL_SIZE_LOG2

/-- Entries written and not yet consumed, P − C (R389). -/
def Cx.crUsed (cx : Cx) (r : Nat) : Nat :=
  idxDiff (cx.get (Reg.CH_CRING_PROD r)) (cx.get (Reg.CH_CRING_CONS r))

/-- The channel's hold demand H (R393). -/
def Cx.holdDemand (cx : Cx) : Nat :=
  ((List.range 64).map fun r => cx.owed r + cx.crUsed r - cx.crSize r).sum

/-- CH_CPL_STATUS (R393, R394). -/
def Cx.cplStatus (cx : Cx) : Word :=
  BitVec.ofNat 32 (cx.ch.rings.hold.length % 512 + cx.holdDemand % 512 * 65536)

/-- A work item bound to ring `r` may start (R393). -/
def Cx.cplRoom (cx : Cx) (r : Nat) : Bool :=
  decide (cx.owed r + 1 + cx.crUsed r ≤ cx.crSize r) || decide (cx.holdDemand + 1 ≤ 256)

def Cx.setOwed (cx : Cx) (r n : Nat) : Cx :=
  cx.setf (Reg.CH_CRING_STAT r) F.CH_CRING_STAT_OWED n

def Cx.setRings (cx : Cx) (r : Rings) : Cx :=
  { cx with ch := { cx.ch with rings := r } }

/-- The first wait of a work item on ring `r` (R395). -/
def Cx.stall (cx : Cx) (r : Nat) (item : StallItem) : Cx :=
  if cx.flg (Reg.CH_CRING_STAT r) F.CH_CRING_STAT_STALLED then cx
  else
    let cx := cx.setRings { cx.ch.rings with
      stalled := Sparse.set (fun _ => none) cx.ch.rings.stalled r (some item) }
    let cx := (cx.setf (Reg.CH_CRING_STAT r) F.CH_CRING_STAT_STALLED 1).inc Cnt.CH_CNT_CPL_STALL
    cx.raise Ev.cplStall r

/-- The stalled item of a ring starts (R395). (DEDUCED, log entry 66) -/
def Cx.unstall (cx : Cx) (r : Nat) : Cx :=
  (cx.setRings { cx.ch.rings with
      stalled := Sparse.set (fun _ => none) cx.ch.rings.stalled r none }).setf
    (Reg.CH_CRING_STAT r) F.CH_CRING_STAT_STALLED 0

/-- Reserve a completion of ring `r` for a work item, or let the item wait (R393, R395). -/
def Cx.reserveCpl (cx : Cx) (r : Nat) (item : StallItem) : Cx × Bool :=
  if cx.cplRoom r then
    let cx := if Sparse.get (fun _ => none) cx.ch.rings.stalled r = some item then cx.unstall r else cx
    (cx.setOwed r (cx.owed r + 1), true)
  else (cx.stall r item, false)

/-- The bytes of an entry (R383). -/
def CplEntry.bytes (e : CplEntry) (long : Bool) (own : Nat) : List Byte :=
  let w0 := e.status % 256 + b2n e.tx * 2 ^ 8 + e.queue % 256 * 2 ^ 9 + e.nbuf % 32 * 2 ^ 17 +
    b2n long * 2 ^ 22 + b2n e.mirror * 2 ^ 23 + b2n e.trunc * 2 ^ 24 + b2n e.copy * 2 ^ 25 +
    b2n (long && e.tsValid) * 2 ^ 26 + e.ftype % 8 * 2 ^ 27 + own * 2 ^ 31
  let w1 := e.info % 65536 + e.len % 2 ^ 14 * 65536
  leBytes 4 w0 ++ leBytes 4 w1 ++ leBytes 4 e.index.toNat ++ leBytes 4 (e.time.toNat / 8) ++
    (if long then leBytes 8 e.cookie.toNat ++ leBytes 8 e.time.toNat else [])

/-- Buffers of a frame leave the queue's list when its completion is written (R371). -/
def Cx.freeBufs (cx : Cx) (e : CplEntry) : Cx :=
  if e.tx then cx
  else
    let q := Sparse.get (fun _ => RxQ.empty) cx.ch.rings.rxq e.queue
    let keep := q.bufs.filter fun b => !(b.used && decide (idxDiff b.idx e.index < e.nbuf))
    cx.setRings { cx.ch.rings with
      rxq := Sparse.set (fun _ => RxQ.empty) cx.ch.rings.rxq e.queue { q with bufs := keep } }

/-- Ring `r` has a free slot (R391). -/
def Cx.crFree (cx : Cx) (r : Nat) : Bool :=
  decide (cx.crUsed r < cx.crSize r)

/-- Write an entry into its ring's next slot, with the vector that R400 calls for behind it (R391, R394,
R398). (DEDUCED, log entry 66) -/
def Cx.writeCpl (cx : Cx) (e : CplEntry) : Cx :=
  let r := e.ring
  let log2 := cx.fld (Reg.CH_CRING_CTL r) F.CH_CRING_CTL_SIZE_LOG2
  let long := cx.flg (Reg.CH_CRING_CTL r) F.CH_CRING_CTL_LONG
  let p := cx.get (Reg.CH_CRING_PROD r)
  let a := slotAddr (cx.get (Reg.CH_CRING_BASE_LO r)) (cx.get (Reg.CH_CRING_BASE_HI r))
    (if long then 32 else 16) log2 p
  let cx := cx.hostWrite .completion a (e.bytes long (phaseOf p log2))
  let cx := ((cx.put (Reg.CH_CRING_PROD r) (p + 1)).inc Cnt.CH_CNT_CPL_WRITTEN).idleRestart
  let cx := cx.setOwed r (cx.owed r - 1)
  let cx := cx.freeBufs e
  if cx.flg (Reg.CH_CRING_CTL r) F.CH_CRING_CTL_ARMED then
    let cx := cx.setf (Reg.CH_CRING_CTL r) F.CH_CRING_CTL_ARMED 0
    cx.when (cx.flg (Reg.CH_CRING_CTL r) F.CH_CRING_CTL_NOTIFY) fun cx =>
      (cx.inc Cnt.CH_CNT_CPL_VEC).push (.vector (cx.fld (Reg.CH_CRING_CTL r) F.CH_CRING_CTL_VECTOR))
  else cx

/-- A completion falls due (R394). In Halted it is abandoned with its reservation (R397). -/
def Cx.cplDue (cx : Cx) (e : CplEntry) : Cx :=
  if cx.mode = ModeCode.halted then cx
  else if cx.crFree e.ring && !(cx.ch.rings.hold.any fun x => x.ring == e.ring) then cx.writeCpl e
  else (cx.setRings { cx.ch.rings with hold := cx.ch.rings.hold ++ [e] }).inc Cnt.CH_CNT_CPL_HELD

/-- Remove the first entry of a ring from the hold queue. -/
def takeHeld (r : Nat) : List CplEntry → Option (CplEntry × List CplEntry)
  | [] => none
  | e :: l =>
    if e.ring = r then some (e, l)
    else match takeHeld r l with
      | some (x, l') => some (x, e :: l')
      | none => none

/-- A held completion of ring `r` leaves the hold queue when the ring has a free slot (R394). -/
def Cx.heldWrite (cx : Cx) (r : Nat) : Cx :=
  if !(cx.crFree r) || cx.modeIn [ModeCode.halted] then cx
  else match takeHeld r cx.ch.rings.hold with
    | none => cx
    | some (e, l) => (cx.setRings { cx.ch.rings with hold := l }).writeCpl e

/-- A consumer index read from the doorbell line or written to CH_CRING_ARM (R390). -/
def Cx.consIndex (cx : Cx) (r : Nat) (t : Word) : Cx × Bool :=
  let c := cx.get (Reg.CH_CRING_CONS r)
  if idxDiff t c ≤ cx.crUsed r then ((cx.put (Reg.CH_CRING_CONS r) t).idleRestart, true)
  else ((cx.inc Cnt.CH_CNT_CPL_BAD_CONS).raise Ev.ringFault (r + 0x2000), false)

/-- A write of CH_CRING_ARM (R400), ignored while EN = 0. An arm of a ring with NOTIFY = 0 moves C and
does not arm. (DEDUCED, log entry 66) -/
def Cx.cringArm (cx : Cx) (r : Nat) (t : Word) : Cx :=
  if cx.flg (Reg.CH_CRING_CTL r) F.CH_CRING_CTL_EN = false then cx
  else match cx.consIndex r t with
    | (cx, false) => cx
    | (cx, true) =>
      if cx.flg (Reg.CH_CRING_CTL r) F.CH_CRING_CTL_NOTIFY = false then cx
      else if cx.crUsed r = 0 then cx.setf (Reg.CH_CRING_CTL r) F.CH_CRING_CTL_ARMED 1
      else (cx.inc Cnt.CH_CNT_CPL_VEC).push
        (.vector (cx.fld (Reg.CH_CRING_CTL r) F.CH_CRING_CTL_VECTOR))

end Sys2Proof.Machine
end

