-- ==== Sys2Proof/Machine/Banks.lean ====
section
/-!
DEFINITION. ECC errors of the memories (R62, R254, R266, R335): the counts per physical bank and the halt of
an uncorrectable error in tree or context memory.
-/

namespace Sys2Proof.Machine

open Sys2Proof

/-- The fallow tree bank serves tree bank `b` (R252, R530). -/
def Cx.treeFallow (cx : Cx) (b : Nat) : Bool :=
  cx.flg Reg.CH_FB_TREE F.CH_FB_TREE_VALID && cx.fld Reg.CH_FB_TREE F.CH_FB_TREE_BANK == b

def Cx.ctxFallow (cx : Cx) (b : Nat) : Bool :=
  cx.flg Reg.CH_FB_CTX F.CH_FB_CTX_VALID && cx.fld Reg.CH_FB_CTX F.CH_FB_CTX_BANK == b

/-- Context bank of a CONTEXT address (R506). -/
def ctxBank (a : Nat) : Nat :=
  if a < 0x100000 then a / 64 / 2048
  else if a < 0x120000 then 8 else if a < 0x140000 then 9 else if a < 0x160000 then 10 else 11

/-- Register that counts the errors of a tree bank, and of a context bank. -/
def Cx.treeErrReg (cx : Cx) (b : Nat) : Nat := Reg.CH_FB_ERR (if cx.treeFallow b then 8 else b)
def Cx.ctxErrReg (cx : Cx) (b : Nat) : Nat := Reg.CH_FB_ERR (if cx.ctxFallow b then 21 else 9 + b)

/-- Physical buffer bank that serves an active bank (R313, R340). -/
def Cx.bufBank (cx : Cx) (b : Nat) : Nat :=
  if cx.flg Reg.CH_GR_BANKS F.CH_GR_BANKS_FB0_VALID && cx.fld Reg.CH_GR_BANKS F.CH_GR_BANKS_FB0_BANK == b then 24
  else if cx.flg Reg.CH_GR_BANKS F.CH_GR_BANKS_FB1_VALID && cx.fld Reg.CH_GR_BANKS F.CH_GR_BANKS_FB1_BANK == b
  then 25 else b

/-- Count an error in an ERR register; each count saturates. -/
def Cx.countCE (cx : Cx) (off : Nat) : Cx :=
  cx.setf off F.CH_GR_ERR_CE (min 0xFFFFFF (cx.fld off F.CH_GR_ERR_CE + 1))
def Cx.countUE (cx : Cx) (off : Nat) : Cx :=
  cx.setf off F.CH_GR_ERR_UE (min 255 (cx.fld off F.CH_GR_ERR_UE + 1))

/-- An uncorrectable error in a read of a tree node (R62, R254). -/
def Cx.treeUE (cx : Cx) (node : Nat) : Cx :=
  let b := node % 8
  (cx.countUE (cx.treeErrReg b)).halt Halt.eccFatal (if cx.treeFallow b then 0xFF else b)

/-- An uncorrectable error in a read of context memory at `a` (R62, R266). -/
def Cx.ctxUE (cx : Cx) (a : Nat) : Cx :=
  let b := ctxBank a
  (cx.countUE (cx.ctxErrReg b)).halt Halt.eccFatal (0x100 + if cx.ctxFallow b then 0xFF else b)

/-- The ECC error, if any, that shows in the reads of a command on the tree and context memories: `nodes`
are the tree nodes read and `addrs` the ranges of context memory, as address and length. Answers whether
the command goes on. -/
def Cx.eccOne (cx : Cx) (e : EccFault) (nodes : List Nat) (addrs : List (Nat × Nat)) : Cx × Bool :=
  let hit (a : Nat) : Bool := addrs.any fun r => decide (r.1 ≤ a) && decide (a < r.1 + r.2)
  match e with
  | .treeCe n =>
    (if nodes.contains n.val then
      (cx.countCE (cx.treeErrReg (n.val % 8))).inc Cnt.CH_CNT_CLS_TREE_ECC_CORR else cx, true)
  | .treeUe n => if nodes.contains n.val then (cx.treeUE n.val, false) else (cx, true)
  | .ctxCe a => (if hit a.val then cx.countCE (cx.ctxErrReg (ctxBank a.val)) else cx, true)
  | .ctxUe a => if hit a.val then (cx.ctxUE a.val, false) else (cx, true)
  | _ => (cx, true)

/-- A row of context memory that holds an address (R506, R528: 64 B). -/
def rowOf (a : Nat) : Nat × Nat := (a / 64 * 64, 64)

/-- A row that a migration wrote as uncorrectable lies in the reads (R336, R528). -/
def rowHit (nodes : List Nat) (addrs : List (Nat × Nat)) : EccFault → Bool
  | .treeUe n => nodes.contains n.val
  | .ctxUe a => addrs.any fun r => decide ((rowOf a).1 < r.1 + r.2) && decide (r.1 < (rowOf a).1 + 64)
  | _ => false

/-- The ECC error that shows in the reads of a command on the tree and context memories, the row's own or one that a
migration left behind (R254, R266, R528). Answers whether the command goes on. -/
def Cx.eccRead (cx : Cx) (e : EccFault) (nodes : List Nat) (addrs : List (Nat × Nat)) : Cx × Bool :=
  match cx.ch.badRows.find? (rowHit nodes addrs) with
  | some (.treeUe n) => (cx.treeUE n.val, false)
  | some (.ctxUe a) => (cx.ctxUE a.val, false)
  | _ => cx.eccOne e nodes addrs

end Sys2Proof.Machine
end

