-- ==== Sys2Proof/Machine/Granary.lean ====
section
/-!
DEFINITION. The Granary (chapter 09): allocation, reservation, hand-off and release of cells, the free stores and
glean, and storing a frame's bytes.
-/

namespace Sys2Proof.Machine

open Sys2Proof

/-! Owner tags (R316). -/
namespace Owner
def none : Nat := 0
def dsRx : Nat := 1
def usRing : Nat := 2
def usFp : Nat := 3
def mgmt : Nat := 4
def imported : Nat := 5
def test : Nat := 6
def committed : Nat := 8
end Owner

/-! Free store modes (R326). -/
namespace GrMode
def bitmap : Nat := 0
def glean : Nat := 1
def ring : Nat := 2
end GrMode

def Cx.grMode (cx : Cx) : Nat :=
  cx.fld Reg.CH_GR_STATUS F.CH_GR_STATUS_MODE

def Cx.freeCount (cx : Cx) : Nat :=
  cx.fld Reg.CH_GR_STATUS F.CH_GR_STATUS_FREE_COUNT

def Cx.reserved (cx : Cx) : Nat :=
  cx.fld Reg.CH_GR_STATUS F.CH_GR_STATUS_RESERVED

def Cx.setFree (cx : Cx) (n : Nat) : Cx :=
  cx.setf Reg.CH_GR_STATUS F.CH_GR_STATUS_FREE_COUNT n

def Cx.setReserved (cx : Cx) (n : Nat) : Cx :=
  cx.setf Reg.CH_GR_STATUS F.CH_GR_STATUS_RESERVED n

def Cx.grPos (cx : Cx) : Nat :=
  cx.fld Reg.CH_GR_GLEAN F.CH_GR_GLEAN_POS

def Cx.setRing (cx : Cx) (l : List Nat) : Cx :=
  { cx with ch := { cx.ch with gr := { cx.ch.gr with ring := l } } }

/-- The lowest free cell at or above `i`: find-first-free over the inverse of the STATE bits
(R325, R326). -/
def Cx.firstFree (cx : Cx) : Nat → Nat → Option Nat
  | 0, _ => none
  | f + 1, i =>
    if numCells ≤ i then none else if (cx.cell i).alloc then cx.firstFree f (i + 1) else some i

/-- The cell that the free store would grant, and the store without it (R326, R331). -/
def Cx.pick (cx : Cx) : Cx × Option Nat :=
  if cx.grMode = GrMode.bitmap then (cx, cx.firstFree (numCells + 1) 0)
  else match cx.ch.gr.ring with
    | i :: r => (cx.setRing r, some i)
    | [] => if cx.grMode = GrMode.glean then (cx, cx.firstFree (numCells + 1) cx.grPos) else (cx, none)

/-- Count a failed request (R324). Another client got the last unreserved cell at the same tick count: the request
lost a contest for it (R322). (DEDUCED, log entry 117) -/
def Cx.allocFail (cx : Cx) (client : Nat) : Cx × Option Nat :=
  let lost := match cx.ch.gr.last with
    | some (t, c) => t == cx.hl.stu.tick && c != client
    | none => false
  ((cx.inc Cnt.CH_CNT_GR_FAIL).when lost fun cx => cx.inc Cnt.CH_CNT_GR_LAST_CELL, none)

/-- Reads of cell table entries: the ECC error that shows in them (R315). Answers whether the command goes on. -/
def Cx.tableRead (cx : Cx) (cells : List Nat) : Cx × Bool :=
  cx.eccRead cx.ecc [] (cells.map fun i => (cellAddr i, 4))

/-- A cell holds a row that a migration wrote as uncorrectable (R336). -/
def Cx.badCell (cx : Cx) (i : Nat) : Bool :=
  cx.ch.badRows.any fun b => match b with
    | .bufUe j => j.val == i
    | _ => false

/-- The rows of a cell are written anew. -/
def Cx.mendCell (cx : Cx) (i : Nat) : Cx :=
  { cx with ch := { cx.ch with badRows := cx.ch.badRows.filter fun b => match b with
      | .bufUe j => j.val != i
      | _ => true } }

/-- A Granary migration runs (R336). -/
def Chan.granMoves (c : Chan) : Bool := getB (c.get Reg.CH_GR_MIGRATE) F.CH_GR_MIGRATE_BUSY

/-- Bytes of buffer memory are written; while a Granary migration runs, to the fallow bank too (R336). -/
def Chan.bufPut (c : Chan) (a : Nat) (bs : List Byte) : Chan :=
  { c with
    buf := Sparse.putBytes c.buf a bs
    gr := if c.granMoves then { c.gr with copied := Sparse.putBytes c.gr.copied a bs } else c.gr }

/-- The STATE of cells is written: a migration that runs may find them free or allocated (R336). -/
def Cx.moveCells (cx : Cx) (l : List Nat) : Cx :=
  if cx.ch.granMoves then { cx with ch := { cx.ch with gr := { cx.ch.gr with moved := cx.ch.gr.moved ++ l } } } else cx

/-- The cell `i` is granted to a client (R317). `lone`: it is the last unreserved cell (R322).
(DEDUCED, log entry 117) -/
def Cx.grant (cx : Cx) (client i : Nat) (resv lone : Bool) : Cx :=
  let cx := ((cx.mendCell i).moveCells [i]).setCell i (Cell.granted client)
  let cx := cx.setFree (cx.freeCount - 1)
  let cx := if resv then cx.setReserved (cx.reserved - 1) else cx
  let cx := if lone then
      { cx with ch := { cx.ch with gr := { cx.ch.gr with last := some (cx.hl.stu.tick, client) } } }
    else cx
  cx.inc Cnt.CH_CNT_GR_ALLOC

/-- Grant one cell to a client (R317, R320, R321). `resv`: the cell comes from the client's reservation
(R323). A grant of a cell that reads as allocated, or whose entry contradicts itself, is an inconsistency (R334). -/
def Cx.alloc (cx : Cx) (client : Nat) (resv : Bool) : Cx × Option Nat :=
  if !resv && decide (cx.freeCount ≤ cx.reserved) then cx.allocFail client
  else match cx.pick with
    | (cx, none) => cx.allocFail client
    | (cx, some i) =>
      match cx.tableRead [i] with
      | (cx, false) => (cx, none)
      | (cx, true) =>
        if (cx.cell i).alloc || (cx.cell i).inconsistent then (cx.halt Halt.granary i, none)
        else (cx.grant client i resv (!resv && cx.freeCount == cx.reserved + 1), some i)

/-- Take a reservation of `n` cells (R323): granted when the unreserved free count less `n` is at least
US_FLOOR. -/
def Cx.reserve (cx : Cx) (n : Nat) : Cx × Bool :=
  let floor := min numCells (cx.fld Reg.CH_GR_CFG F.CH_GR_CFG_US_FLOOR)
  if floor + n + cx.reserved ≤ cx.freeCount then (cx.setReserved (cx.reserved + n), true)
  else (cx, false)

/-- Return reserved cells left unused (R323). -/
def Cx.unreserve (cx : Cx) (n : Nat) : Cx :=
  cx.setReserved (cx.reserved - n)

/-- Record a refused release or hand-off and raise the Granary-fault event (R319). (DEDUCED, log entry 56) -/
def Cx.grFault (cx : Cx) (kind tag i : Nat) : Cx :=
  let w := i % 2 ^ 14 + kind * 2 ^ 14 + tag * 2 ^ 16 + (cx.cell i).owner * 2 ^ 20
  let cx := cx.inc (if kind = 1 then Cnt.CH_CNT_GR_DOUBLE_FREE else Cnt.CH_CNT_GR_FOREIGN_FREE)
  (cx.put Reg.CH_GR_FAULT (BitVec.ofNat 32 w)).raise Ev.grFault w

/-- Push a cell's ID to the ring tail. A ring that holds as many IDs as there are cells would overflow (R334). -/
def Cx.ringPush (cx : Cx) (i : Nat) : Cx :=
  if numCells ≤ cx.ch.gr.ring.length then cx.halt Halt.granary i else cx.setRing (cx.ch.gr.ring ++ [i])

/-- Put a freed cell into the free store (R327, R331): in GLEAN mode only below the scan position. -/
def Cx.pushFree (cx : Cx) (i : Nat) : Cx :=
  if cx.grMode = GrMode.ring ∨ (cx.grMode = GrMode.glean ∧ i < cx.grPos) then cx.ringPush i else cx

/-- The cell becomes free (R317). A HEAD cell with LOST set counts its lost frame (R339). (DEDUCED, log entry 60) -/
def Cx.freeCell (cx : Cx) (i : Nat) : Cx :=
  let c := cx.cell i
  let cx := (cx.moveCells [i]).setCell i { c with alloc := false, owner := Owner.none, refs := 0, lost := false }
  let cx := (cx.setFree (cx.freeCount + 1)).inc Cnt.CH_CNT_GR_FREED
  let cx := cx.when (c.head && c.lost) fun cx => cx.inc Cnt.CH_CNT_GR_LOST_FRAMES
  cx.pushFree i

/-- RELEASE of one cell by the holder of a tag (R317, R319). -/
def Cx.releaseCell (cx : Cx) (tag i : Nat) : Cx :=
  let c := cx.cell i
  if c.alloc = false then cx.grFault 1 tag i
  else if c.owner ≠ tag then cx.grFault 2 tag i
  else if c.refs ≤ 1 then cx.freeCell i
  else cx.setCell i { c with refs := c.refs - 1 }

/-- HANDOFF of one cell at the frame's outcome (R317, R319). -/
def Cx.handoffCell (cx : Cx) (tag refs i : Nat) : Cx :=
  let c := cx.cell i
  if c.owner ≠ tag then cx.grFault 3 tag i
  else cx.setCell i { c with owner := Owner.committed, refs := refs }

/-- The cell that an inconsistent walk reports: the one whose entry is inconsistent, or the head of a chain that is
too long (R334). -/
def Cx.badLink (cx : Cx) (head : Nat) (l : List Nat) : Nat :=
  match l.getLast? with
  | some i => if (cx.cell i).inconsistent || (!(cx.cell i).last && decide (numCells ≤ (cx.cell i).next)) then i else head
  | none => head

/-- The entries of a chain are read; the walk ends in a halt when one of them shows an uncorrectable error (R315) or
the walk is inconsistent (R334). Answers the cells, when it goes on. -/
def Cx.readChain (cx : Cx) (head : Nat) : Cx × Option (List Nat) :=
  let r := cx.chainFrom 63 head
  match cx.tableRead r.1 with
  | (cx, false) => (cx, none)
  | (cx, true) => if r.2 then (cx, some r.1) else (cx.halt Halt.granary (cx.badLink head r.1), none)

/-- Act on every cell of a chain. (DEDUCED, log entry 56) -/
def Cx.overChain (cx : Cx) (head : Nat) (f : Cx → Nat → Cx) : Cx :=
  match cx.readChain head with
  | (cx, some l) => l.foldl f cx
  | (cx, none) => cx

/-- Release a frame's cells. -/
def Cx.releaseChain (cx : Cx) (tag head : Nat) : Cx :=
  cx.overChain head fun cx i => cx.releaseCell tag i

/-- Hand off a frame's cells to its deliveries (R276, R317). -/
def Cx.handoffChain (cx : Cx) (tag refs head : Nat) : Cx :=
  cx.overChain head fun cx i => cx.handoffCell tag refs i

/-- What a delivery finds when it reads the entries of its frame's chain, before it moves a byte (R339). -/
inductive ChainState where
  | whole
  | lost
  /-- The walk has halted the channel: the delivery moves nothing and releases nothing. -/
  | stopped
  deriving DecidableEq, Repr

/-- The chain of a frame is read; when some cell of it was lost, LOST is set on its head (R339).
(DEDUCED, log entry 57) -/
def Cx.checkChain (cx : Cx) (head : Nat) : Cx × ChainState :=
  match cx.readChain head with
  | (cx, none) => (cx, .stopped)
  | (cx, some l) =>
    if l.any fun i => (cx.cell i).lost then (cx.setCell head { cx.cell head with lost := true }, .lost)
    else (cx, .whole)

/-- Where a client stands in storing a frame: head cell, last cell and bytes stored. -/
structure Cursor where
  first : Nat
  last  : Nat
  len   : Nat
  deriving DecidableEq, Repr

/-- Store one byte, taking a cell whenever the frame enters a new one (R314). -/
def Cx.storeByte (cx : Cx) (client : Nat) (resv : Bool) (cur : Cursor) (b : Byte) : Option (Cursor) × Cx :=
  if cur.len % 256 = 0 then
    match cx.alloc client resv with
    | (cx, none) => (none, cx)
    | (cx, some i) =>
      let cx := if cur.len = 0 then cx.setCell i { cx.cell i with head := true }
                else cx.setCell cur.last { cx.cell cur.last with last := false, next := i }
      let cx := { cx with ch := cx.ch.bufPut (256 * i) [b] }
      (some ⟨if cur.len = 0 then i else cur.first, i, cur.len + 1⟩, cx)
  else
    (some { cur with len := cur.len + 1 },
      { cx with ch := cx.ch.bufPut (256 * cur.last + cur.len % 256) [b] })

/-- Store bytes until a cell is refused. -/
def Cx.storeBytes (cx : Cx) (client : Nat) (resv : Bool) (cur : Cursor) : List Byte → Bool × Cursor × Cx
  | [] => (true, cur, cx)
  | b :: bs =>
    match cx.storeByte client resv cur b with
    | (some cur, cx) => cx.storeBytes client resv cur bs
    | (none, cx) => (false, cur, cx)

/-- Store a whole frame; what was stored is released when a cell is refused. -/
def Cx.storeFrame (cx : Cx) (client : Nat) (resv : Bool) (bs : List Byte) : Option Nat × Cx :=
  match cx.storeBytes client resv ⟨0, 0, 0⟩ bs with
  | (true, cur, cx) => (some cur.first, cx)
  | (false, cur, cx) => (none, if cur.len = 0 then cx else cx.releaseChain client cur.first)

/-- The ECC error, if any, that shows when a delivery reads bytes `a` to `b` of a frame (R335), its own or one that a
migration left behind in a cell it reads (R336). Answers whether the frame has a cell error. -/
def Cx.eccCells (cx : Cx) (e : EccFault) (head a b : Nat) : Cx × Bool :=
  let l := ((cx.chainFrom 63 head).1.take ((b + 255) / 256)).drop (a / 256)
  let ue (cx : Cx) (i : Nat) : Cx × Bool :=
    ((cx.countUE (Reg.CH_GR_ERR (cx.bufBank (i / 512)))).inc Cnt.CH_CNT_GR_ECC_UNCORR, true)
  match l.find? fun i => cx.badCell i with
  | some i => ue cx i
  | none => match e with
    | .bufCe i => (if l.contains i.val then cx.countCE (Reg.CH_GR_ERR (cx.bufBank (i.val / 512))) else cx, false)
    | .bufUe i => if l.contains i.val then ue cx i.val else (cx, false)
    | _ => (cx, false)

/-- Cells that a frame of `l` bytes takes (R323). -/
def cellsFor (l : Nat) : Nat := (l + 255) / 256

/-- BITMAP mode (R328): the ring, its cache and the release buffer are discarded and a glean stops. -/
def Cx.toBitmap (cx : Cx) : Cx :=
  ((cx.setRing []).setf Reg.CH_GR_STATUS F.CH_GR_STATUS_MODE GrMode.bitmap).setf
    Reg.CH_GR_GLEAN F.CH_GR_GLEAN_ACTIVE 0

def Cx.gleaning (cx : Cx) : Bool :=
  cx.flg Reg.CH_GR_GLEAN F.CH_GR_GLEAN_ACTIVE

/-- Start glean (R329). -/
def Cx.gleanStart (cx : Cx) : Cx :=
  (((cx.setRing []).setf Reg.CH_GR_STATUS F.CH_GR_STATUS_MODE GrMode.glean).setf
    Reg.CH_GR_GLEAN F.CH_GR_GLEAN_POS 0).setf Reg.CH_GR_GLEAN F.CH_GR_GLEAN_ACTIVE 1

/-- The end of a glean (R332, R338). FREE_COUNT is then what the ring holds (R327). -/
def Cx.gleanEnd (cx : Cx) : Cx :=
  let cx := (cx.setf Reg.CH_GR_STATUS F.CH_GR_STATUS_MODE GrMode.ring).setf
    Reg.CH_GR_GLEAN F.CH_GR_GLEAN_ACTIVE 0
  let cx := cx.setFree cx.ch.gr.ring.length
  let cx := { cx with ch := { cx.ch with gr := { cx.ch.gr with loss := [] } } }
  (cx.inc Cnt.CH_CNT_GR_GLEANS).raise Ev.gleanDone 0

/-- POS passes a cell; the glean ends when it passes the last (R330, R332). -/
def Cx.gleanPass (cx : Cx) (i : Nat) : Cx :=
  let cx := cx.setf Reg.CH_GR_GLEAN F.CH_GR_GLEAN_POS (i + 1)
  if numCells ≤ i + 1 then cx.gleanEnd else cx

/-- The scan acts on the cell at POS: steps 1 to 3 of R330. -/
def Cx.gleanCell (cx : Cx) (i : Nat) : Cx :=
  let c := cx.cell i
  match cx.tableRead [i] with
  | (cx, false) => cx
  | (cx, true) =>
    let cx := cx.when c.inconsistent fun cx => cx.halt Halt.granary i
    if cx.mode = ModeCode.halted then cx
    else if !c.alloc then cx.ringPush i
    else if cx.ch.gr.loss.contains (i / 512) then cx.setCell i { c with lost := true }
    else cx

/-- The scan visits the cell at POS (R330). What it finds wrong halts the channel; in Disabled, where it does not (R62),
POS passes the cell. (DEDUCED, log entry 61) -/
def Cx.gleanVisit (cx : Cx) : Cx :=
  let i := cx.grPos
  let cx := cx.gleanCell i
  if cx.mode = ModeCode.halted then cx else cx.gleanPass i

/-- Visit up to `n` cells while glean runs, which it does in every mode but Stop and Halted (R333).
(DEDUCED, log entry 61) -/
def Cx.gleanRun (cx : Cx) : Nat → Cx
  | 0 => cx
  | n + 1 =>
    if cx.gleaning && !cx.modeIn [ModeCode.stop, ModeCode.halted] then (cx.gleanVisit).gleanRun n else cx

/-- CH_GR_GLEAN.GO (R329): no effect while a glean runs. -/
def Cx.gleanGo (cx : Cx) : Cx :=
  if cx.gleaning then cx else cx.gleanStart

/-- A write of CH_GR_GLEAN.GO. -/
def execGleanGo (c : ChanId) (s : State) : Out :=
  s.coreWrite c Cx.gleanGo

/-- A write of CH_GR_GLEAN.TO_BITMAP. -/
def execToBitmap (c : ChanId) (s : State) : Out :=
  s.coreWrite c Cx.toBitmap

/-- The scan runs to its end (R330, R332). -/
def execGleanDone (c : ReadBy) (s : State) : Out :=
  s.onChanEcc c.chan c.ecc fun cx => cx.gleanRun (numCells + 1)

end Sys2Proof.Machine
end

