-- ==== Sys2Proof/Machine/HostCode.lean ====
section
/-!
DEFINITION. Response codes of the host port (R588 to R590).
-/

namespace Sys2Proof.Machine

open Sys2Proof

/-- A fatal code, by its range (R588). -/
def fatalCode (code : Byte) : Bool := decide (0x80 ≤ code.toNat)

/-- Record a code in HL_HP_STATUS. -/
def Headland.lastCode (h : Headland) (code : Byte) (stream : Nat) (write : Bool) : Headland :=
  ((h.setf Reg.HL_HP_STATUS F.HL_HP_STATUS_LAST_CODE code.toNat).setf
    Reg.HL_HP_STATUS F.HL_HP_STATUS_LAST_STREAM stream).setf Reg.HL_HP_STATUS F.HL_HP_STATUS_LAST_WRITE (b2n write)

/-- A non-fatal code is counted and raised (R589). (DEDUCED, log entry 114) -/
def Headland.nonFatal (h : Headland) (code : Byte) (stream : Nat) (write : Bool) : Headland :=
  (h.inc Cnt.HL_CNT_HP_RETRY).raise Ev.hostPortErr (code.toNat + stream * 2 ^ 8 + b2n write * 2 ^ 16)

/-- A fatal code is counted and recorded (R590). -/
def Headland.fatalSeen (h : Headland) (code : Byte) (stream : Nat) (write : Bool) : Headland :=
  (h.inc Cnt.HL_CNT_HP_FATAL).lastCode code stream write

/-- A fatal code on the Headland stream: HL_FATAL sets, and what the stream holds behind a failed write is
discarded and counted, its event records no longer pending (R403, R590). (DEDUCED, log entries 62 and 68) -/
def Headland.streamFatal (h : Headland) (code : Byte) (write : Bool) : Headland :=
  let items := if write then h.stream.items.tail else h.stream.items
  let h := (h.fatalSeen code 17 write).setf Reg.HL_HP_STATUS F.HL_HP_STATUS_HL_FATAL 1
  let h := { h with stream := { h.stream with items := [], tries := 0, issued := false } }
  (h.endPending items).add Cnt.HL_CNT_HP_HL_DISCARD items.length

/-- A fatal code on a channel's stream or on a read of the channel (R590). -/
def Cx.hostFatal (cx : Cx) (code : Byte) (write : Bool) : Cx :=
  (cx.onHl fun h => h.fatalSeen code cx.id.val write).halt Halt.hostFatal code.toNat

/-- A stream's head data write failed with a non-fatal code: it is issued again, up to three times. Answers
whether the failure is to be handled as fatal (R589). (DEDUCED, log entries 62 and 114) -/
def Stream.failed (st : Stream) : Stream × Bool :=
  if 3 ≤ st.tries then (st, true) else ({ st with tries := st.tries + 1 }, false)

/-- What the stream holds beside a write that the host port has. -/
def Stream.waiting (st : Stream) : List StreamItem := if st.issued then st.items.tail else st.items

end Sys2Proof.Machine
end

