-- ==== Sys2Proof/Machine/Mailbox.lean ====
section
/-!
DEFINITION. The host mailbox, the copy area and the log (R553 to R559, R573 to R576, R658).
-/

namespace Sys2Proof

/-! ### Command records (R554, R555) -/

/-- The opcodes that R169, R531 and chapter 17 give. -/
def knownOps : List Nat :=
  [0x0101, 0x0102, 0x0103, 0x0104, 0x0105, 0x0106, 0x0201, 0x0202, 0x0203, 0x0204, 0x0205, 0x0206, 0x0301, 0x0401,
   0x0402, 0x0403, 0x0404, 0x0405]

/-- A run of `n` ones from bit `i` on. -/
def onesAt (i n : Nat) : Nat := (2 ^ n - 1) * 2 ^ i

/-- The bits of ARGS that a command uses; bit 0 is bit 0 of offset 0x08 of the record (R554). -/
def argBits (op : Nat) : Nat :=
  if op = 0x0101 then onesAt 0 64 + onesAt 64 288
  else if op = 0x0102 ∨ op = 0x0203 then onesAt 64 64
  else if op = 0x0104 then onesAt 0 16 + onesAt 16 14
  else if op = 0x0105 then onesAt 0 16
  else if op = 0x0106 ∨ op = 0x0402 ∨ op = 0x0403 then 1
  else if op = 0x0201 then onesAt 0 5 + onesAt 8 5 + onesAt 16 1 + onesAt 64 64
  else if op = 0x0206 then onesAt 0 2 + onesAt 8 5
  else if op = 0x0301 then onesAt 0 64 + onesAt 64 14 + onesAt 80 8
  else 0

/-- OPCODE of a record. -/
def CmdHead.opcode (m : CmdHead) : Nat := m.word0.toNat % 2 ^ 16

/-- CHANNEL of a record. -/
def CmdHead.chan (m : CmdHead) : Fin 32 := ⟨m.word0.toNat / 2 ^ 16 % 32, Nat.mod_lt _ (by decide)⟩

/-- OWN of a record. -/
def CmdHead.own (m : CmdHead) : Nat := m.word0.toNat / 2 ^ 31

/-- A reserved bit of word 0 is set, or a bit of ARGS that the command does not use (R554, R555). -/
def CmdHead.bad (m : CmdHead) (op : Nat) : Bool :=
  m.word0.toNat / 2 ^ 21 % 2 ^ 10 != 0 || m.args &&& ~~~(BitVec.ofNat 448 (argBits op)) != 0

/-- BAD_ARG of a record, before the ranges of its command's own arguments (R555). -/
def CmdHead.badArg (m : CmdHead) (op : Nat) (names : Bool) : Bool := m.bad op || (names && decide (17 ≤ m.chan.val))

end Sys2Proof

namespace Sys2Proof.Machine

open Sys2Proof

/-! Statuses of mailbox commands (R170, R532, R556). -/
namespace MbStatus
def ok : Nat := 0
def busy : Nat := 1
def badState : Nat := 2
def duplicate : Nat := 3
def full : Nat := 4
def notFound : Nat := 5
def protected_ : Nat := 6
def noSpare : Nat := 7
def notTested : Nat := 8
def badBuffer : Nat := 9
def testFail : Nat := 0xA
def badSignature : Nat := 0xB
def rollback : Nat := 0xC
def badImage : Nat := 0xD
def notStaged : Nat := 0xE
def persistErr : Nat := 0xF
def unknownOp : Nat := 0x10
def badArg : Nat := 0x11
end MbStatus

/-! ### Commands (R555) -/

/-- The image that runs (R566, R569). -/
def Headland.runImage (h : Headland) : FwImage :=
  if h.fld Reg.HL_FW_STATUS F.HL_FW_STATUS_SLOT = 0 then h.fw.slotA else h.fw.slotB

/-- Firmware runs: RUNNING, or TRIAL after READY (R569, R572). -/
def Headland.fwUp (h : Headland) : Bool :=
  let st := h.fld Reg.HL_FW_STATUS F.HL_FW_STATUS_STATE
  st == 4 || (st == 3 && h.fw.ready)

/-- The core stands in the boot ROM without an image (R571). (DEDUCED, log entry 20) -/
def Headland.noImage (h : Headland) : Bool :=
  h.fld Reg.HL_FW_STATUS F.HL_FW_STATUS_STATE == 1

/-- The core can take a command record: the ring is enabled and holds one, the core runs, and the response
has room (R555, R558, R571, R572). (DEDUCED, log entry 20) -/
def Headland.canTake (h : Headland) : Bool :=
  h.flg Reg.HL_MB_CMD_CTL F.HL_MB_CMD_CTL_EN && h.get Reg.HL_MB_CMD_HEAD != h.get Reg.HL_MB_CMD_TAIL &&
    (h.fwUp || h.noImage) && !h.mb.dead && h.rspFree && h.mb.notes.isEmpty

/-- The response of a command, and the COMMAND log record when it changed state (R557, R574). -/
def Headland.respond (h : Headland) (m : CmdHead) (status : Nat) (data : List Byte) (logs : Bool) : Headland :=
  let h := h.post ⟨false, m.opcode, m.chan.val, status, m.tag, h.stu.tick, data⟩
  if logs ∧ status = MbStatus.ok then
    h.logDue LogKind.command (if m.chan.val < 17 then m.chan.val else 31) [m.opcode, m.tag.toNat, status]
  else h

/-- The record at the head is taken. -/
def Headland.take (h : Headland) : Headland :=
  (h.put Reg.HL_MB_CMD_HEAD (h.get Reg.HL_MB_CMD_HEAD + 1)).inc Cnt.HL_CNT_MB_CMDS

/-- The mark of a record is the lap phase of the index at which it stands (R344, R555). -/
def Headland.marked (h : Headland) (m : CmdHead) : Bool :=
  m.own == phaseOf (h.get Reg.HL_MB_CMD_HEAD) (h.fld Reg.HL_MB_CMD_CTL F.HL_MB_CMD_CTL_SIZE_LOG2)

/-- Firmware takes the record as that of the command `op`, or as one with an unknown opcode.
(DEDUCED, log entry 107) -/
def Headland.taking (h : Headland) (m : CmdHead) (op : Nat) : Bool :=
  h.canTake && h.marked m && (m.opcode == op || !knownOps.contains m.opcode)

/-- The status of a record that is refused before its command's own checks (R555, R571). `boot`: the command is served
without an image. (DEDUCED, log entries 20 and 107) -/
def Headland.refuses (h : Headland) (m : CmdHead) (op : Nat) (names boot : Bool) : Option Nat :=
  if m.opcode ≠ op then some (if h.noImage then MbStatus.badState else MbStatus.unknownOp)
  else if m.badArg op names then some MbStatus.badArg
  else if h.noImage && !boot then some MbStatus.badState
  else none

/-- A mailbox command (R555): its record is taken, checked and answered; `run` gives the status and the response's
DATA. -/
def State.command (s : State) (m : CmdHead) (op : Nat) (names logs boot : Bool)
    (run : State → State × Nat × List Byte) : State :=
  if s.hl.taking m op then
    let s := { s with hl := s.hl.take }
    let r : State × Nat × List Byte :=
      match s.hl.refuses m op names boot with
      | some st => (s, st, [])
      | none => run s
    { r.1 with hl := r.1.hl.respond m r.2.1 r.2.2 logs }
  else s

/-- A command that names a channel. (DEDUCED, log entry 20) -/
def State.chanCommand (s : State) (m : CmdHead) (op : Nat) (logs : Bool) (run : ChanId → State → State × Nat) :
    Out :=
  s.alive fun s => s.command m op true logs false fun s =>
    if h : m.chan.val < 17 then
      let r := run ⟨m.chan.val, h⟩ s
      (r.1, r.2, [])
    else (s, MbStatus.badArg, [])

/-- A command that names no channel. `boot`: it is served without an image (R571). (DEDUCED, log entry 20) -/
def State.devCommand (s : State) (m : CmdHead) (op : Nat) (logs boot : Bool)
    (run : State → State × Nat × List Byte) : Out :=
  s.alive fun s => s.command m op false logs boot run

/-- A write of HL_MB_CMD_TAIL (R555, R658). -/
def Headland.cmdTail (h : Headland) (t : Word) : Headland :=
  let c := h.get Reg.HL_MB_CMD_HEAD
  let p := h.get Reg.HL_MB_CMD_TAIL
  if h.flg Reg.HL_MB_CMD_CTL F.HL_MB_CMD_CTL_EN = false ∨ t = p then h
  else if idxDiff p c ≤ idxDiff t c ∧ idxDiff t c ≤ 2 ^ h.fld Reg.HL_MB_CMD_CTL F.HL_MB_CMD_CTL_SIZE_LOG2 then
    h.put Reg.HL_MB_CMD_TAIL t
  else h.inc Cnt.HL_CNT_MB_BAD_TAIL

def execMbCmdTail (t : Word) (s : State) : Out := s.hlWrite fun h => h.cmdTail t

/-! The three rings: 0 command, 1 mailbox, 2 copy area. -/
def mbCtl (r : Nat) : Nat :=
  if r = 0 then Reg.HL_MB_CMD_CTL else if r = 1 then Reg.HL_MB_RSP_CTL else Reg.HL_MB_COPY_CTL
def mbStart (r : Nat) : Nat :=
  if r = 0 then Reg.HL_MB_CMD_START else if r = 1 then Reg.HL_MB_RSP_START else Reg.HL_MB_COPY_START
/-- The core's index and the host's index of a ring. -/
def mbCore (r : Nat) : Nat :=
  if r = 0 then Reg.HL_MB_CMD_HEAD else if r = 1 then Reg.HL_MB_RSP_PROD else Reg.HL_MB_COPY_PROD
def mbHost (r : Nat) : Nat :=
  if r = 0 then Reg.HL_MB_CMD_TAIL else if r = 1 then Reg.HL_MB_RSP_CONS else Reg.HL_MB_COPY_CONS

/-- The range of SIZE_LOG2 (R553). -/
def mbSizeOk (r n : Nat) : Bool :=
  if r = 2 then decide (4 ≤ n) && decide (n ≤ 10) else decide (6 ≤ n) && decide (n ≤ 12)

/-- A write of a ring's control register (R658). (DEDUCED, log entry 17) -/
def Headland.mbRingCtl (h : Headland) (r : Nat) (v : Word) : Headland :=
  let en := F.HL_MB_CMD_CTL_EN
  let sz := F.HL_MB_CMD_CTL_SIZE_LOG2
  if h.flg (mbCtl r) en then
    if getB v en then h else h.setf (mbCtl r) en 0
  else
    let n := getF v sz
    if getB v en && !mbSizeOk r n then h
    else
      let h := h.setf (mbCtl r) sz n
      if getB v en then
        let st := h.get (mbStart r)
        let h := ((h.setf (mbCtl r) en 1).put (mbCore r) st).put (mbHost r) st
        if r = 1 then h.noteDrain h.mb.notes.length else h
      else h

def execMbRingCtlWrite (r : Fin 3) (v : Word) (s : State) : Out := s.hlWrite fun h => h.mbRingCtl r v

/-- A write of HL_MB_RSP_CONS or HL_MB_COPY_CONS (R390, R658). -/
def Headland.mbCons (h : Headland) (copy : Bool) (t : Word) : Headland :=
  let r := if copy then 2 else 1
  let c := h.get (mbHost r)
  if h.flg (mbCtl r) F.HL_MB_CMD_CTL_EN && decide (idxDiff t c ≤ idxDiff (h.get (mbCore r)) c) then
    let h := h.put (mbHost r) t
    if copy then h else h.noteDrain h.mb.notes.length
  else h

def execMbConsWrite (copy : Bool) (t : Word) (s : State) : Out := s.hlWrite fun h => h.mbCons copy t

/-- MB_COMMAND_REREAD: the record below the tail is read again; its mark does not match, or the read is
answered with a code (R555, R658). -/
def Headland.cmdReread (h : Headland) (code : Byte) : Headland :=
  if h.flg Reg.HL_MB_CMD_CTL F.HL_MB_CMD_CTL_EN = false ∨ h.get Reg.HL_MB_CMD_HEAD = h.get Reg.HL_MB_CMD_TAIL ∨
      h.mb.dead ∨ code = 0 then h
  else if fatalCode code then (h.setMb { h.mb with dead := true }).streamFatal code false
  else h.nonFatal code 17 false

def execMbCommandReread (code : Byte) (s : State) : Out := s.onHl fun h => h.cmdReread code

/-! ### The copy area (R559) -/

def Headland.copySize (h : Headland) : Nat := 2 ^ h.fld Reg.HL_MB_COPY_CTL F.HL_MB_COPY_CTL_SIZE_LOG2

/-- An entry is discarded rather than written. -/
def Headland.copyDiscard (h : Headland) (e : CoreEntry) : Bool :=
  !h.flg Reg.HL_MB_COPY_CTL F.HL_MB_COPY_CTL_EN ||
    decide (h.copySize ≤ idxDiff (h.get Reg.HL_MB_COPY_PROD) (h.get Reg.HL_MB_COPY_CONS)) ||
    (e.mgmt && decide (2016 < e.len))

/-- The bytes of a copy-area slot. -/
def CoreEntry.bytes (e : CoreEntry) (own : Nat) : List Byte :=
  leBytes 4 ((if e.mgmt then 2 else 1) + e.chan % 32 * 4 + own * 2 ^ 31) ++
    leBytes 4 (e.len % 2 ^ 14 + e.mark % 2 ^ 16 * 2 ^ 16) ++
    leBytes 4 (e.rule % 2 ^ 13 + e.ctx % 2 ^ 14 * 2 ^ 16) ++ leBytes 4 0 ++
    leBytes 8 e.ts.toNat ++ leBytes 8 0 ++ e.data

/-- Firmware drains the oldest entry (R559). -/
def Headland.copyDrain (h : Headland) : Headland :=
  if h.fwUp = false then h
  else match h.core with
    | [] => h
    | e :: l =>
      let h : Headland := { h with core := l }
      if h.copyDiscard e then h.inc Cnt.HL_CNT_MB_COPY_DROP
      else
        let log2 := h.fld Reg.HL_MB_COPY_CTL F.HL_MB_COPY_CTL_SIZE_LOG2
        let p := h.get Reg.HL_MB_COPY_PROD
        let a := slotAddr (h.get Reg.HL_MB_COPY_BASE_LO) (h.get Reg.HL_MB_COPY_BASE_HI) 2048 log2 p
        ((h.hostWrite .copyArea a (e.bytes (phaseOf p log2))).put Reg.HL_MB_COPY_PROD (p + 1)).notice
          Notice.copy e.chan [p.toNat]

def execCopyDrain (s : State) : Out := s.onHl Headland.copyDrain

/-! ### The log (R573 to R576) -/

/-- LOG is raised when the unread records reach THRESH (R575). -/
def Headland.logThreshold (h : Headland) : Headland :=
  let n := idxDiff (h.get Reg.HL_LOG_SEQ) (h.get Reg.HL_LOG_CONS)
  if !h.mb.logHit && decide (max 1 (h.fld Reg.HL_LOG_CFG F.HL_LOG_CFG_THRESH) ≤ n) then
    (h.setMb { h.mb with logHit := true }).raise Ev.log (n % 2 ^ 16)
  else h

/-- Firmware writes a record, mirrors it and raises LOG (R573, R575). The severity is the firmware's.
(DEDUCED, log entry 107) -/
def Headland.logWrite (h : Headland) (r : LogReq) (sev : Nat) : Headland :=
  let seq := h.get Reg.HL_LOG_SEQ + 1
  let bs := leBytes 4 seq.toNat ++
    leBytes 4 (r.kind % 256 + sev % 8 * 2 ^ 8 + r.chan % 32 * 2 ^ 11 + h.mb.boots % 2 ^ 16 * 2 ^ 16) ++
    leBytes 8 h.stu.tick.toNat ++ (r.data ++ List.replicate 16 0).take 16
  let off := 32 * (seq.toNat % 2048)
  let h : Headland := { h.setMb { h.mb with psDue := h.mb.psDue ++ [bs] } with
    log := Sparse.putBytes h.log off bs }
  let h := h.put Reg.HL_LOG_SEQ seq
  let h := if 2048 < idxDiff seq (h.get Reg.HL_LOG_CONS) then h.inc Cnt.HL_CNT_LOG_OVERRUN else h
  let base := (h.get Reg.HL_LOG_MIRROR_LO).toNat / 64 * 64 + (h.get Reg.HL_LOG_MIRROR_HI).toNat * 2 ^ 32
  let h := if h.flg Reg.HL_LOG_CFG F.HL_LOG_CFG_MIRROR_EN then h.hostWrite .log (base + off) bs else h
  h.logThreshold

/-- Firmware writes the oldest record due. (DEDUCED, log entry 107) -/
def Headland.logRecord (h : Headland) (sev : Nat) : Headland :=
  match h.mb.logDue with
  | [] => h
  | r :: l => (h.setMb { h.mb with logDue := l }).logWrite r sev

def execLogRecord (sev : Fin 4) (s : State) : Out :=
  s.onHl fun h => if h.fwUp then h.logRecord sev else h

/-- A write of HL_LOG_CONS (R575). -/
def execLogConsWrite (t : Word) (s : State) : Out :=
  s.hlWrite fun h => (h.put Reg.HL_LOG_CONS t).setMb { h.mb with logHit := false }

/-- Records reach the persist log, which keeps the latest 8,192 and the pinned BANK_RETIRED records; a
failed write is retried (R576). (DEDUCED, log entry 108) -/
def Headland.logPersist (h : Headland) (ok : Bool) : Headland :=
  match h.mb.psDue with
  | [] => h
  | bs :: l =>
    if ok then
      let pin := leNat ((bs.drop 4).take 1) == LogKind.bankRetired
      let all := h.mb.psLog ++ [bs]
      h.setMb { h.mb with
        psDue := l, psFail := false
        psLog := all.drop (all.length - 8192)
        psPinned := if pin && decide (h.mb.psPinned.length < 1024) then h.mb.psPinned ++ [bs] else h.mb.psPinned }
    else ((h.setMb { h.mb with psFail := true }).inc Cnt.HL_CNT_LOG_PERSIST_ERR).inc Cnt.HL_CNT_PS_ERR

/-- LOG_PERSIST; paused while the core restarts (R572). -/
def execLogPersist (ok : Bool) (s : State) : Out :=
  s.onHl fun h => if h.fwUp && !h.mb.psFail then h.logPersist ok else h

/-- PERSIST_RETRY: a failed write is made again (R576). (DEDUCED, log entry 108) -/
def execPersistRetry (ok : Bool) (s : State) : Out :=
  s.onHl fun h => if h.fwUp && h.mb.psFail then h.logPersist ok else h

end Sys2Proof.Machine
end

