-- ==== Sys2Proof/Machine/Flags.lean ====
section
/-!
DEFINITION. The check codes of the manual: the IEEE 802.3 CRC-32 of a frame (R123), CRC-32C (R282), the
CRC-64 of an address tag (R241), CRC-16 (R96, R477), the Toeplitz hash (R283), and the XOR and odd-parity
helpers they use.
-/

namespace Sys2Proof.Machine

open Sys2Proof

/-- `n` shifts of a left-shifting CRC register of width `w`. -/
def crcShiftL (w poly : Nat) : Nat → Nat → Nat
  | 0, c => c
  | n + 1, c =>
    crcShiftL w poly n (if nbit c (w - 1) then (c * 2 % 2 ^ w) ^^^ poly else c * 2 % 2 ^ w)

/-- `n` shifts of a right-shifting (bit-reflected) CRC register. -/
def crcShiftR (poly : Nat) : Nat → Nat → Nat
  | 0, c => c
  | n + 1, c => crcShiftR poly n (if nbit c 0 then c / 2 ^^^ poly else c / 2)

/-- CRC of width `w`, most significant bit first, no reflection and no final inversion. -/
def crcMsb (w poly init : Nat) (bs : List Byte) : Nat :=
  bs.foldl (fun c b => crcShiftL w poly 8 (c ^^^ b.toNat * 2 ^ (w - 8))) init

/-- CRC-32 with reflected input and output, initial value and final XOR of all ones. -/
def crcRefl32 (poly : Nat) (bs : List Byte) : Nat :=
  (bs.foldl (fun c b => crcShiftR poly 8 (c ^^^ b.toNat)) 0xFFFFFFFF) ^^^ 0xFFFFFFFF

/-- The IEEE 802.3 CRC-32 (R123); 0xEDB88320 is the reflected polynomial. -/
def crc32 (bs : List Byte) : Nat :=
  crcRefl32 0xEDB88320 bs

/-- CRC-32C (R282): 0x82F63B78 is 0x1EDC6F41 reflected. -/
def crc32c (bs : List Byte) : Nat :=
  crcRefl32 0x82F63B78 bs

/-- CRC-64 under the ECMA-182 polynomial (R241). -/
def crc64 (bs : List Byte) : Nat :=
  crcMsb 64 0x42F0E1EBA9EA3693 0 bs

/-- CRC-16 with polynomial 0x1021 and initial value 0xFFFF (R96, R477). -/
def crc16 (bs : List Byte) : Nat :=
  crcMsb 16 0x1021 0xFFFF bs

/-- The FCS bytes of a frame. -/
def fcsOf (bs : List Byte) : List Byte :=
  leBytes 4 (crc32 bs)

/-- The last four bytes match the CRC of those before them (R123). -/
def fcsOk (bs : List Byte) : Bool :=
  decide (bs.drop (bs.length - 4) = fcsOf (bs.take (bs.length - 4)))

/-- A host frame as it is stored: padded with zeros to 60 B and followed by its FCS (R361). -/
def padFcs (bs : List Byte) : List Byte :=
  let p := bs ++ List.replicate (60 - bs.length) 0
  p ++ fcsOf p

/-- The Toeplitz hash over input bits (R283): `k` is the key as a 320-bit number, key byte 0 first. -/
def toeplitzBits (k : Nat) : Nat → List Bool → Nat → Nat
  | _, [], h => h
  | i, b :: bs, h => toeplitzBits k (i + 1) bs (if b then h ^^^ (k / 2 ^ (288 - i) % 2 ^ 32) else h)

/-- The bits of a byte, most significant first. -/
def byteBits (b : Byte) : List Bool :=
  [nbit b.toNat 7, nbit b.toNat 6, nbit b.toNat 5, nbit b.toNat 4, nbit b.toNat 3, nbit b.toNat 2,
   nbit b.toNat 1, nbit b.toNat 0]

/-- Toeplitz hash of the first 36 input bytes (R283). -/
def toeplitz (key : Nat) (bs : List Byte) : Nat :=
  toeplitzBits key 0 ((bs.take 36).flatMap byteBits) 0

end Sys2Proof.Machine
end

