-- ==== Sys2Proof/Machine/Parser.lean ====
section
/-!
DEFINITION. The parser (R219 to R229, R233, R234, R238, R239): a pure function from a frame's bytes, without
its FCS, to its layers, its malformed cause and the fields of the key.
-/

namespace Sys2Proof.Machine

open Sys2Proof

/-- A parsed layer: its first byte and the byte after its last parsed byte (R229). -/
abbrev Layer := Option (Nat × Nat)

/-- The parser's configuration (CH_PARSE_CFG, CH_PARSE_TPID, CH_PARSE_UDP). -/
structure ParseCfg where
  mplsIp : Bool
  vxlan  : Bool
  gre    : Bool
  gtpu   : Bool
  inner  : Bool
  tpidX  : Nat
  vxlanUdp : Nat
  gtpuUdp  : Nat
  deriving DecidableEq, Repr

/-- What the parser has found. `stop` says that parsing has ended. -/
structure Parsed where
  stop     : Bool
  cause    : Nat
  window   : Bool
  vlanDeep : Bool
  mplsDeep : Bool
  vlans    : Nat
  mpls     : Nat
  exts     : Nat
  l2       : Layer
  etype    : Layer
  mplsL    : Layer
  outer3   : Layer
  outer4   : Layer
  tunnel   : Layer
  inner2   : Layer
  inner3   : Layer
  inner4   : Layer
  /-- Outer L3 is IPv4 (4) or IPv6 (6), or absent (0). -/
  ver      : Nat
  /-- 4 VXLAN, 5 GRE, 6 GTP-U, 0 none: the frame types of R227. -/
  tun      : Nat
  l4proto  : Nat
  l4       : Bool
  frag     : Bool
  later    : Bool
  /-- The last fragment: offset non-zero and MF or M = 0 (R240). -/
  lastFrag : Bool
  fragId   : Nat
  fragProto : Nat
  src      : List Byte
  dst      : List Byte
  deriving DecidableEq, Repr

def Parsed.init : Parsed :=
  { stop := false, cause := 0, window := false, vlanDeep := false, mplsDeep := false, vlans := 0, mpls := 0,
    exts := 0, l2 := none, etype := none, mplsL := none, outer3 := none, outer4 := none, tunnel := none,
    inner2 := none, inner3 := none, inner4 := none, ver := 0, tun := 0, l4proto := 0, l4 := false,
    frag := false, later := false, lastFrag := false, fragId := 0, fragProto := 0, src := [], dst := [] }

/-! Malformed causes (R234). -/
namespace Cause
def trunc : Nat := 1
def badHlen : Nat := 2
def lenMismatch : Nat := 3
def extDepth : Nat := 4
def version : Nat := 5
def tinyFrag : Nat := 6
end Cause

def Parsed.bad (p : Parsed) (c : Nat) : Parsed := { p with stop := true, cause := c }
def Parsed.halt (p : Parsed) : Parsed := { p with stop := true }

/-- Byte `i` of the frame. -/
def byteAt (f : List Byte) (i : Nat) : Nat := (f.getD i 0).toNat

/-- The big-endian 16-bit number at `i`. -/
def be16 (f : List Byte) (i : Nat) : Nat := byteAt f i * 256 + byteAt f (i + 1)

/-- The parser needs bytes up to `e` (exclusive) of a frame that ends at `lim`: beyond the end is TRUNC,
otherwise beyond byte 256 ends parsing with WINDOW (R224, R234). (DEDUCED, log entry 51) -/
def Parsed.need (p : Parsed) (lim e : Nat) (k : Parsed → Parsed) : Parsed :=
  if p.stop then p
  else if lim < e then p.bad Cause.trunc
  else if 256 < e then { p.halt with window := true }
  else k p

/-- The end of a layer in which a cause is found: the last byte the parser read for it (R233).
(DEDUCED, log entry 51) -/
def readEnd (lim e : Nat) : Nat := min (min lim 256) e

/-- Where a layer from `a` stands when its header up to `e` is needed: present once its first byte is in
the frame and the window. -/
def layerAt (lim a e : Nat) : Layer :=
  if a < min lim 256 then some (a, readEnd lim e) else none

/-! ### Ethernet and MPLS -/

/-- The tags from the EtherType position `pos` (R222). Answers the position of the EtherType after them;
`n` tags may still be taken. -/
def tags (cfg : ParseCfg) (f : List Byte) : Nat → Nat → Parsed → Nat → Parsed × Nat × Nat
  | 0, pos, p, k =>
    if p.stop then (p, pos, k)
    else
      let t := be16 f pos
      if t = 0x8100 ∨ t = 0x88A8 ∨ t = cfg.tpidX then ({ p.halt with vlanDeep := true }, pos, k)
      else (p, pos, k)
  | n + 1, pos, p, k =>
    if p.stop then (p, pos, k)
    else
      let t := be16 f pos
      if t = 0x8100 ∨ t = 0x88A8 ∨ t = cfg.tpidX then
        tags cfg f n (pos + 4) (p.need f.length (pos + 6) id) (k + 1)
      else (p, pos, k)

/-- MPLS labels from `pos`; answers the position after the bottom label (R222). (DEDUCED, log entries 54 and 159) -/
def labels (f : List Byte) : Nat → Nat → Parsed → Parsed × Nat
  | 0, pos, p => if p.stop then (p, pos) else ({ p.halt with mplsDeep := true }, pos)
  | n + 1, pos, p =>
    let p := p.need f.length (pos + 4) fun p => { p with mpls := p.mpls + 1 }
    if p.stop then (p, pos)
    else if nbit (byteAt f (pos + 2)) 0 then (p, pos + 4)
    else labels f n (pos + 4) p

/-! ### IP headers -/

/-- What an IP header leaves for the layers after it: where they start, the end of the IP payload, the
protocol, and whether the datagram is unfragmented. -/
structure IpOut where
  pos   : Nat
  pend  : Nat
  proto : Nat
  whole : Bool
  deriving DecidableEq, Repr

/-- Record an IP layer, outer or inner: it is now the innermost one, which no L4 header has followed yet (R228).
(DEDUCED, log entry 53) -/
def Parsed.setL3 (p : Parsed) (inner : Bool) (l : Layer) : Parsed :=
  let p := if l.isSome then { p with l4 := false } else p
  if inner then { p with inner3 := l } else { p with outer3 := l }

/-- An IP header in which a cause is found counts as parsed up to byte `e`, and its version is the one
announced (R227, R233). One that the window cuts off is not parsed (R224). (DEDUCED, log entry 53) -/
def Parsed.cutL3 (p : Parsed) (inner : Bool) (announced len a e : Nat) : Parsed :=
  if p.window then p
  else
    let l := layerAt len a e
    let p := if l.isSome ∧ announced = 6 then { p with exts := 0 } else p
    if inner || l.isNone then p.setL3 inner l else { p.setL3 inner l with ver := announced }

/-- An IPv4 header at `a` (R222, R234, R238). Its fields are judged in header order. (DEDUCED, log entry 52) -/
def ipv4 (f : List Byte) (inner : Bool) (announced : Nat) (a : Nat) (p : Parsed) : Parsed × IpOut :=
  let len := f.length
  let no : IpOut := ⟨a, a, 0, false⟩
  let seen (p : Parsed) (e : Nat) : Parsed := p.cutL3 inner announced len a e
  let p := p.need len (a + 1) id
  if p.stop then (p, no)
  else if byteAt f a / 16 ≠ announced then ((seen p (a + 1)).bad Cause.version, no)
  else
    let ihl := byteAt f a % 16
    if ihl < 5 then ((seen p (a + 1)).bad Cause.badHlen, no)
    else
      let hl := 4 * ihl
      if (p.need len (a + 4) id).stop then (seen (p.need len (a + 4) id) (a + 4), no)
      else if be16 f (a + 2) < hl ∨ len - a < be16 f (a + 2) then ((seen p (a + 4)).bad Cause.lenMismatch, no)
      else if (p.need len (a + hl) id).stop then (p.need len (a + hl) id, no)
      else
        let proto := byteAt f (a + 9)
        let fo := be16 f (a + 6) % 8192
        let mf := nbit (byteAt f (a + 6)) 5
        let p := { p.setL3 inner (some (a, a + hl)) with l4proto := proto }
        let p := if inner then p
          else { p with
            ver := 4, src := (f.drop (a + 12)).take 4, dst := (f.drop (a + 16)).take 4,
            fragId := be16 f (a + 4), fragProto := proto,
            frag := mf || fo != 0, later := fo != 0, lastFrag := fo != 0 && !mf }
        let p := if fo = 0 then p
          else if !inner ∧ fo = 1 ∧ proto = 6 then p.bad Cause.tinyFrag
          else p.halt
        (p, ⟨a + hl, a + be16 f (a + 2), proto, !mf && fo == 0⟩)

/-- The extension types that R222 recognises. -/
def isExt (t : Nat) (first : Bool) : Bool :=
  (t == 0 && first) || t == 43 || t == 44 || t == 51 || t == 60

/-- IPv6 extension headers from `pos`, announced as `t`; `n` may still be taken (R222, R238, R239).
(DEDUCED, log entries 53 and 54) -/
def exts (f : List Byte) (inner : Bool) (a : Nat) : Nat → Nat → Nat → Bool → Bool → Parsed → Parsed × Nat × Nat × Bool
  | 0, pos, t, first, whole, p =>
    if isExt t first then (p.bad Cause.extDepth, pos, t, whole) else (p, pos, t, whole)
  | n + 1, pos, t, first, whole, p =>
    if !isExt t first then (p, pos, t, whole)
    else
      let q := p.need f.length (pos + 2) id
      if q.stop then (q.setL3 inner (layerAt f.length a (pos + 2)), pos, t, whole)
      else
        let nh := byteAt f pos
        let l := if t = 44 then 8 else if t = 51 then (byteAt f (pos + 1) + 2) * 4
                 else (byteAt f (pos + 1) + 1) * 8
        let q := p.need f.length (pos + l) id
        if q.stop then (({ q with l4proto := nh } : Parsed).setL3 inner (layerAt f.length a (pos + l)), pos, t, whole)
        else
          let p := { p with exts := p.exts + 1, l4proto := nh }
          let p := p.setL3 inner (layerAt f.length a (pos + l))
          let off := be16 f (pos + 2) / 8
          let m := nbit (byteAt f (pos + 3)) 0
          if t = 44 then
            let p := if inner || (!m && off == 0) then p
              else { p with
                frag := true, later := off != 0, lastFrag := off != 0 && !m,
                fragId := beNat ((f.drop (pos + 4)).take 4), fragProto := nh }
            let whole := whole && !m && off == 0
            if off ≠ 0 then
              (if !inner ∧ off = 1 ∧ nh = 6 then p.bad Cause.tinyFrag else p.halt, pos + l, nh, whole)
            else exts f inner a n (pos + l) nh false whole p
          else exts f inner a n (pos + l) nh false whole p

/-- An IPv6 header at `a` (R222, R234). (DEDUCED, log entries 52 and 53) -/
def ipv6 (f : List Byte) (inner : Bool) (announced : Nat) (a : Nat) (p : Parsed) : Parsed × IpOut :=
  let len := f.length
  let no : IpOut := ⟨a, a, 0, false⟩
  let p := p.need len (a + 1) id
  if p.stop then (p, no)
  else if byteAt f a / 16 ≠ announced then ((p.cutL3 inner announced len a (a + 1)).bad Cause.version, no)
  else if (p.need len (a + 6) id).stop then ((p.need len (a + 6) id).cutL3 inner announced len a (a + 6), no)
  else
    let plen := be16 f (a + 4)
    if plen = 0 ∨ len - a < 40 + plen then ((p.cutL3 inner announced len a (a + 6)).bad Cause.lenMismatch, no)
    else if (p.need len (a + 40) id).stop then (p.need len (a + 40) id, no)
    else
      let nh := byteAt f (a + 6)
      let p := { p.setL3 inner (some (a, a + 40)) with l4proto := nh, exts := 0 }
      let p := if inner then p
        else { p with ver := 6, src := (f.drop (a + 8)).take 16, dst := (f.drop (a + 24)).take 16 }
      let r := exts f inner a 4 (a + 40) nh true true p
      (r.1, ⟨r.2.1, a + 40 + plen, r.2.2.1, r.2.2.2⟩)

/-- An IP header announced as version 4 or 6. (DEDUCED, log entry 52) -/
def ip (f : List Byte) (inner : Bool) (ver : Nat) (a : Nat) (p : Parsed) : Parsed × IpOut :=
  if ver = 4 then ipv4 f inner 4 a p else ipv6 f inner 6 a p

/-! ### Transport and tunnels -/

def Parsed.setL4 (p : Parsed) (inner : Bool) (l : Layer) : Parsed :=
  if inner then { p with inner4 := l, l4 := true } else { p with outer4 := l, l4 := true }

/-- TCP, UDP, SCTP or ICMP at the end of an IP header (R222, R233, R234). `ver` is the IP version. A first
fragment must hold its whole header. (DEDUCED, log entry 157) -/
def transport (f : List Byte) (inner : Bool) (ver : Nat) (o : IpOut) (p : Parsed) : Parsed :=
  let a := o.pos
  let lim := if o.whole then f.length else min f.length o.pend
  let part (p : Parsed) (e : Nat) : Parsed :=
    if a < min lim 256 then p.setL4 inner (layerAt lim a e) else p
  let fixed (n : Nat) : Parsed :=
    let q := p.need lim (a + n) id
    if q.stop then (if q.window then q else part q (a + n)) else p.setL4 inner (some (a, a + n))
  if p.stop then p
  else if o.proto = 6 then
    let q := p.need lim (a + 13) id
    if q.stop then (if q.window then q else part q (a + 13))
    else
      let hl := byteAt f (a + 12) / 16 * 4
      if hl < 20 then (p.setL4 inner (some (a, a + 13))).bad Cause.badHlen
      else
        let q := p.need lim (a + hl) id
        if q.stop then (if q.window then q else part q (a + hl)) else p.setL4 inner (some (a, a + hl))
  else if o.proto = 17 then
    let q := p.need lim (a + 6) id
    if q.stop then (if q.window then q else part q (a + 6))
    else
      let ul := be16 f (a + 4)
      if ul < 8 ∨ (o.whole ∧ o.pend - a < ul) then (p.setL4 inner (some (a, a + 6))).bad Cause.lenMismatch
      else fixed 8
  else if o.proto = 132 then fixed 12
  else if (o.proto = 1 ∧ ver = 4) ∨ (o.proto = 58 ∧ ver = 6) then fixed 4
  else p.halt

/-- The IP version that a first nibble announces, 0 when neither. -/
def nibbleVer (b : Nat) : Nat := if b / 16 = 4 then 4 else if b / 16 = 6 then 6 else 0

/-- An inner IP header and its transport header (R222, R226). -/
def innerIp (f : List Byte) (ver a : Nat) (p : Parsed) : Parsed :=
  let r := ip f true ver a p
  transport f true ver r.2 r.1

/-- Inner Ethernet at `a` (R222). -/
def innerEth (cfg : ParseCfg) (f : List Byte) (a : Nat) (p : Parsed) : Parsed :=
  let q := p.need f.length (a + 14) id
  if q.stop then (if q.window then q else { q with inner2 := layerAt f.length a (a + 14) })
  else
    let r := tags cfg f 2 (a + 12) { p with inner2 := some (a, a + 14) } 0
    let p := { r.1 with inner2 := some (a, min (r.2.1 + 2) (readEnd f.length (r.2.1 + 2))) }
    if p.stop then p
    else
      let t := be16 f r.2.1
      if t = 0x0800 then innerIp f 4 (r.2.1 + 2) p
      else if t = 0x86DD then innerIp f 6 (r.2.1 + 2) p
      else p.halt

/-- VXLAN at `a` (R222). -/
def vxlan (cfg : ParseCfg) (f : List Byte) (a : Nat) (p : Parsed) : Parsed :=
  let p := { p with tun := 4 }
  let q := p.need f.length (a + 8) id
  if q.stop then { q with tunnel := if q.window then none else layerAt f.length a (a + 8) }
  else
    let p := { p with tunnel := some (a, a + 8) }
    if cfg.inner then innerEth cfg f (a + 8) p else p.halt

/-- A tunnel header cut by the frame's end (R233): one that begins in the frame is a parsed layer, and gives the frame
its type `t`. -/
def Parsed.cutTunnel (p : Parsed) (lim a e t : Nat) : Parsed :=
  let l := layerAt lim a e
  { p with tunnel := l, tun := if l.isSome then t else p.tun }

/-- GRE at `a` (R222): version 0, which is judged where its byte is in the frame. (DEDUCED, log entry 54) -/
def gre (cfg : ParseCfg) (f : List Byte) (a : Nat) (p : Parsed) : Parsed :=
  let q := p.need f.length (a + 4) id
  if a + 1 < readEnd f.length (a + 2) ∧ byteAt f (a + 1) % 8 ≠ 0 then p.halt
  else if q.stop then (if q.window then q else q.cutTunnel f.length a (a + 4) 5)
  else
    let flags := byteAt f a
    let p := { p with tun := 5 }
    let other := nbit flags 6 || decide (flags % 16 ≠ 0) || decide (byteAt f (a + 1) / 8 ≠ 0)
    let hl := 4 + 4 * (b2n (nbit flags 7) + b2n (nbit flags 5) + b2n (nbit flags 4))
    let q := p.need f.length (a + hl) id
    if q.stop then { q with tunnel := if q.window then none else layerAt f.length a (a + hl) }
    else
      let p := { p with tunnel := some (a, a + hl) }
      let t := be16 f (a + 2)
      if other || !cfg.inner then p.halt
      else if t = 0x0800 then innerIp f 4 (a + hl) p
      else if t = 0x86DD then innerIp f 6 (a + hl) p
      else p.halt

/-- GTP-U extension headers from `pos`, whose type byte precedes `pos`; `n` may still be taken. -/
def gtpExts (f : List Byte) (a : Nat) : Nat → Nat → Nat → Parsed → Parsed × Nat
  | 0, pos, t, p => if t = 0 then (p, pos) else (p.bad Cause.extDepth, pos)
  | n + 1, pos, t, p =>
    if t = 0 then (p, pos)
    else
      let q := p.need f.length (pos + 1) id
      if q.stop then (q, pos)
      else
        let l := 4 * byteAt f pos
        if l = 0 then (({ p with tunnel := some (a, pos + 1) } : Parsed).bad Cause.badHlen, pos)
        else
          let q := p.need f.length (pos + l) id
          if q.stop then ({ q with tunnel := layerAt f.length a (pos + l) }, pos)
          else gtpExts f a n (pos + l) (byteAt f (pos + l - 1)) { p with tunnel := some (a, pos + l) }

/-- GTP-U at `a` (R222): version 1, message type 0xFF; the version is judged where its byte is in the frame. -/
def gtpu (cfg : ParseCfg) (f : List Byte) (a : Nat) (p : Parsed) : Parsed :=
  let q := p.need f.length (a + 2) id
  if a < readEnd f.length (a + 1) ∧ byteAt f a / 32 ≠ 1 then p.halt
  else if q.stop then (if q.window then q else q.cutTunnel f.length a (a + 2) 6)
  else if byteAt f (a + 1) ≠ 255 then p.halt
  else
    let p := { p with tun := 6 }
    let opt := byteAt f a % 8 ≠ 0
    let hl := if opt then 12 else 8
    let q := p.need f.length (a + hl) id
    if q.stop then { q with tunnel := if q.window then none else layerAt f.length a (a + hl) }
    else
      let p := { p with tunnel := some (a, a + hl) }
      let r := if opt ∧ nbit (byteAt f a) 2 then gtpExts f a 4 (a + 12) (byteAt f (a + 11)) p else (p, a + hl)
      let p := r.1
      if p.stop then p
      else if cfg.inner = false then p.halt
      else
        let q := p.need f.length (r.2 + 1) id
        if q.stop then q
        else if nibbleVer (byteAt f r.2) = 0 then p.halt
        else innerIp f (nibbleVer (byteAt f r.2)) r.2 p

/-- The layers after an outer IP header: transport, and the tunnel it announces (R222, R239). -/
def afterIp (cfg : ParseCfg) (f : List Byte) (ver : Nat) (o : IpOut) (p : Parsed) : Parsed :=
  if p.stop then p
  else if o.proto = 47 ∧ cfg.gre then gre cfg f o.pos p
  else
    let p := transport f false ver o p
    if p.stop || o.proto != 17 then p.halt
    else
      let dport := be16 f (o.pos + 2)
      if cfg.vxlan ∧ o.whole ∧ dport = cfg.vxlanUdp then vxlan cfg f (o.pos + 8) p
      else if cfg.gtpu ∧ dport = cfg.gtpuUdp then gtpu cfg f (o.pos + 8) p
      else p.halt

def outerIp (cfg : ParseCfg) (f : List Byte) (ver a : Nat) (p : Parsed) : Parsed :=
  let r := ip f false ver a p
  afterIp cfg f ver r.2 r.1

/-- What the EtherType after the outer tags announces (R222, R223). -/
def afterEtype (cfg : ParseCfg) (f : List Byte) (pos : Nat) (p : Parsed) : Parsed :=
  let t := be16 f pos
  if t = 0x0800 then outerIp cfg f 4 (pos + 2) p
  else if t = 0x86DD then outerIp cfg f 6 (pos + 2) p
  else if t = 0x8847 ∨ t = 0x8848 then
    let r := labels f 4 (pos + 2) p
    let p := { r.1 with mplsL := if r.1.cause ≠ 0 then layerAt f.length (pos + 2) f.length
                                 else if r.1.mpls = 0 then none else some (pos + 2, pos + 2 + 4 * r.1.mpls) }
    if p.stop || !cfg.mplsIp then p.halt
    else
      let q := p.need f.length (r.2 + 1) id
      if q.stop then q
      else if nibbleVer (byteAt f r.2) = 0 then p.halt
      else outerIp cfg f (nibbleVer (byteAt f r.2)) r.2 p
  else p.halt

/-- Parse a frame given without its FCS. (DEDUCED, log entry 158) -/
def parse (cfg : ParseCfg) (f : List Byte) : Parsed :=
  let p := Parsed.init
  let q := p.need f.length 14 id
  if q.stop then { q with l2 := layerAt f.length 0 14 }
  else
    let r := tags cfg f 2 12 { p with l2 := some (0, 14) } 0
    let pos := r.2.1
    let p := { r.1 with vlans := min 2 r.2.2, l2 := some (0, readEnd f.length (pos + 2)),
                        etype := if r.1.stop then none else some (pos, pos + 2) }
    if p.stop then p else afterEtype cfg f pos p

/-- Frame type (R227). (DEDUCED, log entry 52) -/
def Parsed.ftype (p : Parsed) : Nat :=
  if p.later then 7
  else if p.tun ≠ 0 then p.tun
  else if p.mpls ≠ 0 then 3
  else if p.ver = 4 then 1
  else if p.ver = 6 then 2
  else 0

/-- The parse metadata in key bytes 0 to 7 (R228). -/
def Parsed.meta (p : Parsed) (up : Bool) (port source : Nat) : Nat :=
  p.ftype + b2n up * 2 ^ 4 + p.vlans * 2 ^ 5 + p.mpls * 2 ^ 7 + p.exts % 8 * 2 ^ 10 +
    b2n (p.cause != 0) * 2 ^ 13 + b2n p.window * 2 ^ 14 + b2n p.frag * 2 ^ 15 +
    b2n (p.frag && !p.later) * 2 ^ 16 + b2n p.vlanDeep * 2 ^ 17 + b2n p.mplsDeep * 2 ^ 18 +
    b2n (p.inner2.isSome || p.inner3.isSome) * 2 ^ 19 + b2n p.l4 * 2 ^ 20 + p.cause % 8 * 2 ^ 21 +
    p.l4proto % 256 * 2 ^ 24 + port % 65536 * 2 ^ 32 + (if up then source % 512 else 0) * 2 ^ 48

/-- The layer of an anchor (R229). -/
def Parsed.anchor (p : Parsed) (a : Nat) : Layer :=
  if a = 1 then p.l2 else if a = 2 then p.etype else if a = 3 then p.mplsL else if a = 4 then p.outer3
  else if a = 5 then p.outer4 else if a = 6 then p.tunnel else if a = 7 then p.inner2
  else if a = 8 then p.inner3 else if a = 9 then p.inner4 else none

/-- Source byte `off` past an anchor, or zero (R229). -/
def anchorByte (f : List Byte) (l : Layer) (off : Nat) : Byte :=
  match l with
  | none => 0
  | some (a, e) => if a + off < e ∧ a + off < f.length ∧ a + off < 256 then f.getD (a + off) 0 else 0

/-- An extractor (CH_KEY_EXT) writes its key bytes, none past byte 63 (R229). -/
def extract (f : List Byte) (p : Parsed) (key : List Byte) (w : Word) : List Byte :=
  let l := min 8 (getF w F.CH_KEY_EXT_LEN)
  let dst := getF w F.CH_KEY_EXT_DST_OFF
  let src := getF w F.CH_KEY_EXT_SRC_OFF
  let anchor := getF w F.CH_KEY_EXT_ANCHOR
  if anchor = 0 ∨ 9 < anchor ∨ dst < 8 then key
  else (List.range l).foldl (fun k i => k.set (dst + i) (anchorByte f (p.anchor anchor) (src + i))) key

/-- The 64-byte key (R228, R229): the extractors of a profile in rising index. -/
def buildKey (f : List Byte) (p : Parsed) (up : Bool) (port source : Nat) (exts : List Word) : List Byte :=
  exts.foldl (extract f p) (leBytes 8 (p.meta up port source) ++ List.replicate 56 0)

end Sys2Proof.Machine
end

