-- ==== Sys2Proof/Machine/Sheaves.lean ====
section
/-!
DEFINITION. Sheaves (chapter 08): slot states, the sheaf commands, the root check, scheduled commits, the
slot a frame enters under, the drain counts and the protection of live memory; with the CONTEXT layout of
flow contexts and rule records (R264, R268, R506).
-/

namespace Sys2Proof.Machine

open Sys2Proof

/-! Slot states (R288). -/
namespace SlotState
def free : Nat := 0
def build : Nat := 1
def armed : Nat := 2
def current : Nat := 3
def draining : Nat := 4
def drained : Nat := 5
end SlotState

/-! Results of a sheaf command or arm (CH_SHEAF_STATUS.RESULT). -/
namespace SheafResult
def ok : Nat := 1
def badState : Nat := 2
def busy : Nat := 3
def checkFail : Nat := 4
end SheafResult

/-- The STATEg field of CH_SHEAF_STATUS. -/
def slotField (g : Nat) : Field := ⟨4 + 4 * g, 3⟩

def Cx.slotState (cx : Cx) (g : Nat) : Nat :=
  cx.fld Reg.CH_SHEAF_STATUS (slotField g)

def Cx.setSlot (cx : Cx) (g st : Nat) : Cx :=
  cx.setf Reg.CH_SHEAF_STATUS (slotField g) st

/-- The current slot, if any (R289). -/
def Cx.curSlot (cx : Cx) : Option Nat :=
  if cx.flg Reg.CH_SHEAF_STATUS F.CH_SHEAF_STATUS_CUR_VALID then
    some (cx.fld Reg.CH_SHEAF_STATUS F.CH_SHEAF_STATUS_CUR)
  else none

/-- FREE or BUILD: the slot's registers and memory may be written (R231, R259, R288). -/
def Cx.slotOpen (cx : Cx) (g : Nat) : Bool :=
  decide (cx.slotState g ≤ SlotState.build)

/-- Live slots (R288). -/
def Cx.slotLive (cx : Cx) (g : Nat) : Bool :=
  decide (SlotState.armed ≤ cx.slotState g)

/-! ### Records in CONTEXT and TREE space (R505, R506) -/

def ctxAddr (i : Nat) : Nat := 64 * i
def ruleAddr (i : Nat) : Nat := 0x100000 + 32 * i
def nodeAddr (i : Nat) : Nat := 32 * i

/-- `n` little-endian bytes at an offset of a flow context (R268). -/
def Cx.ctxLe (cx : Cx) (i off n : Nat) : Nat :=
  Sparse.le cx.ch.ctxm (ctxAddr i + off) n

def Cx.putCtx (cx : Cx) (i off n v : Nat) : Cx :=
  { cx with ch := { cx.ch with ctxm := Sparse.putLe cx.ch.ctxm (ctxAddr i + off) n v } }

def Cx.ruleLe (cx : Cx) (i off n : Nat) : Nat :=
  Sparse.le cx.ch.ctxm (ruleAddr i + off) n

def Cx.nodeLe (cx : Cx) (i off n : Nat) : Nat :=
  Sparse.le cx.ch.tree (nodeAddr i + off) n

/-- Bit `g` of a node's GEN_MASK (R255). -/
def Cx.nodeGen (cx : Cx) (i g : Nat) : Bool := nbit (cx.nodeLe i 0x18 8) (48 + g)

/-- Bit `g` of a rule record's GEN_MASK (R264). -/
def Cx.ruleGen (cx : Cx) (i g : Nat) : Bool := nbit (cx.ruleLe i 8 4) (4 + g)

/-- A rule record's ACTION is valid (R264). -/
def Cx.ruleActOk (cx : Cx) (i : Nat) : Bool := decide (nbits (cx.ruleLe i 0 4) 1 0 ≤ 1)

/-! ### Counts and drain -/

def Cx.inflight (cx : Cx) (g : Nat) : Nat := cx.fld (Reg.CH_SHEAF_INFLIGHT g) F.CH_SHEAF_INFLIGHT_COUNT
def Cx.pins (cx : Cx) (g : Nat) : Nat := cx.fld (Reg.CH_SHEAF_PINS g) F.CH_SHEAF_PINS_COUNT
def Cx.frags (cx : Cx) (g : Nat) : Nat := cx.fld (Reg.CH_SHEAF_FRAGS g) F.CH_SHEAF_FRAGS_COUNT

/-- A reference to a DRAINED slot returns it to DRAINING (R306). -/
def Cx.undrain (cx : Cx) (g : Nat) : Cx :=
  if cx.slotState g = SlotState.drained then cx.setSlot g SlotState.draining else cx

/-- A frame enters slot `g` (R298). -/
def Cx.flyIn (cx : Cx) (g : Option Nat) : Cx :=
  match g with
  | some g => (cx.setf (Reg.CH_SHEAF_INFLIGHT g) F.CH_SHEAF_INFLIGHT_COUNT (cx.inflight g + 1)).undrain g
  | none => cx

/-- A frame reaches its outcome or is dropped before it (R298). -/
def Cx.flyOut (cx : Cx) (g : Option Nat) : Cx :=
  match g with
  | some g => cx.setf (Reg.CH_SHEAF_INFLIGHT g) F.CH_SHEAF_INFLIGHT_COUNT (cx.inflight g - 1)
  | none => cx

/-- The slot that a context word pins, if it pins one (R303). -/
def pinOf (w : Nat) : Option Nat :=
  if nbit w 0 && nbit w 3 then some (nbits w 5 4) else none

/-- The pin counts follow a change of a context's first word (R303, R304). -/
def Cx.pinChange (cx : Cx) (old new : Nat) : Cx :=
  if pinOf old = pinOf new then cx
  else
    let cx := match pinOf old with
      | some g => cx.setf (Reg.CH_SHEAF_PINS g) F.CH_SHEAF_PINS_COUNT (cx.pins g - 1)
      | none => cx
    match pinOf new with
    | some g => (cx.setf (Reg.CH_SHEAF_PINS g) F.CH_SHEAF_PINS_COUNT (cx.pins g + 1)).undrain g
    | none => cx

/-- A fragment table entry begins or stops holding slot `g` (R246, R306). -/
def Cx.fragHold (cx : Cx) (g : Nat) (on : Bool) : Cx :=
  if on then (cx.setf (Reg.CH_SHEAF_FRAGS g) F.CH_SHEAF_FRAGS_COUNT (cx.frags g + 1)).undrain g
  else cx.setf (Reg.CH_SHEAF_FRAGS g) F.CH_SHEAF_FRAGS_COUNT (cx.frags g - 1)

/-- The slot under which a frame enters, given its arrival context's first word (R296). -/
def Cx.entrySlot (cx : Cx) (aw : Nat) : Option Nat × Cx :=
  if nbit aw 3 then
    if decide (SlotState.current ≤ cx.slotState (nbits aw 5 4)) then (some (nbits aw 5 4), cx)
    else (cx.curSlot, cx.inc Cnt.CH_CNT_SHEAF_PIN_NOT_LIVE)
  else (cx.curSlot, cx)

/-- A frame enters with its arrival context (R269, R296, R298). -/
def Cx.enter (cx : Cx) (ctx port : Nat) : Entry × Cx :=
  let aw := cx.ctxLe ctx 0 8
  let r := cx.entrySlot aw
  (⟨r.1, ctx, aw, port, none⟩, r.2.flyIn r.1)

/-! ### Commands (R292) -/

/-- Record a result of a command or an arm. -/
def Cx.sheafResult (cx : Cx) (g res : Nat) (arm : Bool) : Cx :=
  ((cx.setf Reg.CH_SHEAF_STATUS F.CH_SHEAF_STATUS_RESULT res).setf
    Reg.CH_SHEAF_STATUS F.CH_SHEAF_STATUS_RES_SLOT g).setf
    Reg.CH_SHEAF_STATUS F.CH_SHEAF_STATUS_RES_ARM (b2n arm)

/-- Refuse a command or an arm (R293, R294, R300). -/
def Cx.sheafRefuse (cx : Cx) (g res : Nat) (arm : Bool) : Cx :=
  ((cx.sheafResult g res arm).inc Cnt.CH_CNT_SHEAF_REFUSED).raise Ev.sheaf (g + 0x10)

def Cx.sheafBusy (cx : Cx) : Bool := cx.flg Reg.CH_SHEAF_STATUS F.CH_SHEAF_STATUS_BUSY

/-- An arm is held. -/
def Cx.armValid (cx : Cx) : Bool := cx.flg Reg.CH_SHEAF_ARM F.CH_SHEAF_ARM_VALID

/-- A valid arm names slot `g`. -/
def Cx.armNames (cx : Cx) (g : Nat) : Bool :=
  cx.armValid && cx.fld Reg.CH_SHEAF_ARM F.CH_SHEAF_ARM_SLOT == g

/-- Slot `g` becomes CURRENT and the slot it replaces DRAINING (R290, R301). -/
def Cx.makeCurrent (cx : Cx) (g : Nat) : Cx :=
  let cx := match cx.curSlot with
    | some o => if o = g then cx else cx.setSlot o SlotState.draining
    | none => cx
  let cx := ((cx.setSlot g SlotState.current).setf Reg.CH_SHEAF_STATUS F.CH_SHEAF_STATUS_CUR g).setf
    Reg.CH_SHEAF_STATUS F.CH_SHEAF_STATUS_CUR_VALID 1
  let t := cx.hl.stu.tick.toNat
  let cx := (cx.put Reg.CH_SHEAF_LAST_T_LO (BitVec.ofNat 32 t)).put
    Reg.CH_SHEAF_LAST_T_HI (BitVec.ofNat 32 (t / 2 ^ 32))
  (cx.inc Cnt.CH_CNT_SHEAF_COMMITS).raise Ev.sheaf (g + 0x30)

def Cx.clearArm (cx : Cx) : Cx :=
  cx.setf Reg.CH_SHEAF_ARM F.CH_SHEAF_ARM_VALID 0

/-- STU time has reached a tick count. -/
def Cx.reached (cx : Cx) (t : Nat) : Bool := decide (t ≤ cx.hl.stu.tick.toNat)

/-- The root check begins (R294, R295): BUSY is 1 until it ends. `arm`: on behalf of an arm, which is late when it
arrives at or after its time (R301); that of an arm waits for one that runs (R300). (DEDUCED, log entry 150) -/
def Cx.checkStart (cx : Cx) (g : Nat) (arm : Option DWord) : Cx :=
  let cx := cx.setf Reg.CH_SHEAF_STATUS F.CH_SHEAF_STATUS_BUSY 1
  { cx with ch := { cx.ch with checks := cx.ch.checks ++ [(g, arm.map fun t => (t, cx.reached t.toNat))] } }

/-- The fault that one tree of a slot shows, 0 when none (R294). -/
def Cx.rootFault (cx : Cx) (g t : Nat) : Nat :=
  let r := cx.get (Reg.CH_TREE_ROOT g t)
  let root := getF r F.CH_TREE_ROOT_ROOT
  let dflt := getF r F.CH_TREE_ROOT_DEFAULT_RULE
  if getB r F.CH_TREE_ROOT_VALID = false then 0
  else if getB r F.CH_TREE_ROOT_ROOT_IS_RULE = false ∧ cx.nodeGen root g = false then 1
  else if getB r F.CH_TREE_ROOT_ROOT_IS_RULE = false ∧
      (nbits (cx.nodeLe root 0x18 8) 46 45 = 0 ∨ nbits (cx.nodeLe root 0x18 8) 46 45 = 3) then 2
  else if getB r F.CH_TREE_ROOT_ROOT_IS_RULE = true ∧
      (cx.ruleGen (root % 2 ^ 13) g = false ∨ cx.ruleActOk (root % 2 ^ 13) = false) then 3
  else if cx.ruleGen dflt g = false ∨ cx.ruleActOk dflt = false then 4
  else 0

/-- The first fault in ascending tree order: tree and fault (R294). -/
def Cx.rootCheck (cx : Cx) (g : Nat) : List Nat → Nat × Nat
  | [] => (0, 0)
  | t :: ts => if cx.rootFault g t = 0 then cx.rootCheck g ts else (t, cx.rootFault g t)

/-- Hold an arm for slot `g` at tick T (R300). -/
def Cx.holdArm (cx : Cx) (g : Nat) (t : DWord) : Cx :=
  ((((cx.setf Reg.CH_SHEAF_ARM F.CH_SHEAF_ARM_SLOT g).setf Reg.CH_SHEAF_ARM F.CH_SHEAF_ARM_VALID 1).put
    Reg.CH_SHEAF_ARM_T_LO (BitVec.ofNat 32 t.toNat)).put
    Reg.CH_SHEAF_ARM_T_HI (BitVec.ofNat 32 (t.toNat / 2 ^ 32))).sheafResult g SheafResult.ok true

/-- An accepted arm; one that arrived at or after T commits, late, and one whose time has come meanwhile commits
(R301). -/
def Cx.acceptArm (cx : Cx) (g : Nat) (t : DWord) (late : Bool) : Cx :=
  let cx := cx.holdArm g t
  if late then ((cx.clearArm).inc Cnt.CH_CNT_SHEAF_LATE).makeCurrent g
  else if cx.reached t.toNat then cx.clearArm.makeCurrent g
  else if cx.slotState g = SlotState.build then cx.setSlot g SlotState.armed
  else cx

/-- The trees of a slot with VALID = 1. -/
def Cx.validRoots (cx : Cx) (g : Nat) : List Word :=
  ((List.range 8).map fun t => cx.get (Reg.CH_TREE_ROOT g t)).filter fun r => getB r F.CH_TREE_ROOT_VALID

/-- The root nodes that the check reads, and the rule records with their addresses and lengths (R294, R295). -/
def Cx.checkNodes (cx : Cx) (g : Nat) : List Nat :=
  ((cx.validRoots g).filter fun r => !getB r F.CH_TREE_ROOT_ROOT_IS_RULE).map fun r => getF r F.CH_TREE_ROOT_ROOT
def Cx.checkRules (cx : Cx) (g : Nat) : List (Nat × Nat) :=
  ((cx.validRoots g).flatMap fun r =>
    (if getB r F.CH_TREE_ROOT_ROOT_IS_RULE then [getF r F.CH_TREE_ROOT_ROOT % 2 ^ 13] else []) ++
      [getF r F.CH_TREE_ROOT_DEFAULT_RULE]).map fun i => (ruleAddr i, 32)

/-- The slot of a root check passes it (R294, R300). An arm whose slot has left BUILD while it waited, or that finds
another arm held, is refused. (DEDUCED, log entry 150) -/
def Cx.checkPassed (cx : Cx) (g : Nat) : Option (DWord × Bool) → Cx
  | some (t, late) =>
    if cx.armValid || cx.slotState g != SlotState.build then cx.sheafRefuse g SheafResult.badState true
    else cx.acceptArm g t late
  | none => (cx.makeCurrent g).sheafResult g SheafResult.ok false

/-- The root check ends (R294): on a fault the slot stays in BUILD. An uncorrectable error in one of its reads halts
the channel (R295). What the freeze of a handover holds for the target does not change in the source (R310). -/
def Cx.rootCheckDone (cx : Cx) (ecc : EccFault) : Cx :=
  match cx.ch.checks with
  | [] => cx
  | (g, arm) :: rest =>
    if cx.frozen then cx
    else
      let cx := cx.setf Reg.CH_SHEAF_STATUS F.CH_SHEAF_STATUS_BUSY (b2n !rest.isEmpty)
      let cx := { cx with ch := { cx.ch with checks := rest } }
      match cx.eccRead ecc (cx.checkNodes g) (cx.checkRules g) with
      | (cx, false) => cx
      | (cx, true) =>
        let r := cx.rootCheck g (List.range 8)
        let cx := cx.put Reg.CH_SHEAF_CHECK (BitVec.ofNat 32 (r.1 + r.2 * 16))
        if r.2 ≠ 0 then cx.sheafRefuse g SheafResult.checkFail arm.isSome else cx.checkPassed g arm

/-- The armed time, as a tick count. -/
def Cx.armTime (cx : Cx) : Nat :=
  (cx.get Reg.CH_SHEAF_ARM_T_LO).toNat + 2 ^ 32 * (cx.get Reg.CH_SHEAF_ARM_T_HI).toNat

/-- STU time has reached the time of a valid arm (R301). What the freeze of a handover holds for the target does not
change in the source (R310). -/
def Cx.armDue (cx : Cx) : Bool :=
  cx.armValid && !cx.modeIn [ModeCode.stop, ModeCode.halted] && !cx.frozen && cx.reached cx.armTime

/-- STU time reaches an armed T (R301). -/
def Cx.armedCommit (cx : Cx) : Cx :=
  if cx.armDue then (cx.clearArm).makeCurrent (cx.fld Reg.CH_SHEAF_ARM F.CH_SHEAF_ARM_SLOT) else cx

/-- The channel is the source of a handover and is not yet left: its slots stay as the target takes them over. -/
def Cx.leaving (cx : Cx) : Bool := cx.preparing || (cx.frozen && cx.mode == ModeCode.handover)

/-- A command acts when no root check runs; otherwise it is refused with BUSY (R293). So is one to the source of a
handover (R310, R536), and one that meets an armed commit, which takes place (R293). -/
def Cx.sheafCmd (cx : Cx) (g : Nat) (ok : Bool) (f : Cx → Cx) : Cx :=
  if cx.sheafBusy || cx.leaving || cx.armDue then cx.armedCommit.sheafRefuse g SheafResult.busy false
  else if ok then f cx
  else cx.sheafRefuse g SheafResult.badState false

def Cx.sheafBuild (cx : Cx) (g : Nat) : Cx :=
  cx.sheafCmd g (cx.slotState g == SlotState.free) fun cx =>
    (cx.setSlot g SlotState.build).sheafResult g SheafResult.ok false

def Cx.sheafAbandon (cx : Cx) (g : Nat) : Cx :=
  cx.sheafCmd g (cx.slotState g == SlotState.build) fun cx =>
    (cx.setSlot g SlotState.free).sheafResult g SheafResult.ok false

def Cx.sheafDisarm (cx : Cx) (g : Nat) : Cx :=
  cx.sheafCmd g (cx.slotState g == SlotState.armed || cx.armNames g) fun cx =>
    let cx := cx.clearArm
    let cx := if cx.slotState g = SlotState.armed then cx.setSlot g SlotState.build else cx
    cx.sheafResult g SheafResult.ok false

def Cx.sheafCommit (cx : Cx) (g : Nat) : Cx :=
  let st := cx.slotState g
  cx.sheafCmd g
    (!cx.armValid && (st == SlotState.build || st == SlotState.draining || st == SlotState.drained))
    fun cx =>
      if st = SlotState.build then cx.checkStart g none
      else (cx.makeCurrent g).sheafResult g SheafResult.ok false

def Cx.sheafRelease (cx : Cx) (g : Nat) : Cx :=
  cx.sheafCmd g (cx.slotState g == SlotState.drained && !cx.armNames g) fun cx =>
    (cx.setSlot g SlotState.free).sheafResult g SheafResult.ok false

/-- An arm arrives from the Headland (R300, R302): an arm for a Halted channel is discarded; one for a
channel in Stop is held until wake, and one for a frozen handover source until RESUME (R543). -/
def Cx.armArrive (cx : Cx) (g : Nat) (t : DWord) : Cx :=
  let st := cx.slotState g
  if cx.mode = ModeCode.halted then cx
  else if cx.ch.coreStopped ∨ cx.mode = ModeCode.stop ∨ cx.frozen then
    { cx with ch := { cx.ch with armHeld := cx.ch.armHeld ++ [(g, t)] } }
  else if cx.armValid then cx.sheafRefuse g SheafResult.badState true
  else if st = SlotState.draining ∨ st = SlotState.drained then cx.acceptArm g t (cx.reached t.toNat)
  else if st = SlotState.build then cx.checkStart g (some t)
  else cx.sheafRefuse g SheafResult.badState true

/-- Arms that arrived in Stop are delivered at wake (R302). -/
def Cx.deliverArms (cx : Cx) : Cx :=
  let l := cx.ch.armHeld
  l.foldl (fun cx a => cx.armArrive a.1 a.2) { cx with ch := { cx.ch with armHeld := [] } }

/-- The drain condition of R305 holds. -/
def Cx.drainOk (cx : Cx) (g : Nat) : Bool :=
  cx.slotState g == SlotState.draining && cx.inflight g == 0 && cx.pins g == 0 && cx.frags g == 0

def Cx.slotDrained (cx : Cx) (g : Nat) : Cx :=
  if cx.drainOk g && !cx.frozen then (cx.setSlot g SlotState.drained).raise Ev.sheaf (g + 0x20) else cx

/-! ### Protection of live memory (R307) -/

/-- The live slots as a mask. -/
def Cx.liveMask (cx : Cx) : Nat :=
  ((List.range 4).map fun g => b2n (cx.slotLive g) * 2 ^ g).sum

/-- A write of 32 bytes over an old node or record is accepted (R307): `lo` is the first bit of GEN_MASK in
the 256-bit value, and `rule` says that the object is a rule record. -/
def writeAccepted (live lo : Nat) (rule : Bool) (old new : List Byte) : Bool :=
  let o := leNat old
  let n := leNat new
  let go := nbits o (lo + 3) lo
  let gn := nbits n (lo + 3) lo
  decide (go &&& live = 0 ∧ gn &&& live = 0) ||
  decide (o ^^^ n = (go ^^^ gn) * 2 ^ lo ∧ (go ^^^ gn) &&& live = 0) ||
  (rule && decide (o % 2 ^ 128 = n % 2 ^ 128))

/-- A discarded write to live memory (R307). -/
def Cx.protectDiscard (cx : Cx) (off : Nat) : Cx :=
  (cx.inc Cnt.CH_CNT_SHEAF_PROTECT).configEvent off

/-! ### Rows -/

def execBuild (c : ChanId) (g : Fin 4) (s : State) : Out :=
  s.coreWrite c fun cx => cx.sheafBuild g

def execAbandon (c : ChanId) (g : Fin 4) (s : State) : Out :=
  s.coreWrite c fun cx => cx.sheafAbandon g

def execDisarm (c : ChanId) (g : Fin 4) (s : State) : Out :=
  s.coreWrite c fun cx => cx.sheafDisarm g

def execCommit (c : ChanId) (g : Fin 4) (s : State) : Out :=
  s.coreWrite c fun cx => cx.sheafCommit g

def execRelease (c : ChanId) (g : Fin 4) (s : State) : Out :=
  s.coreWrite c fun cx => cx.sheafRelease g

def execRootCheckDone (c : ReadBy) (s : State) : Out :=
  s.onChan c.chan fun cx => cx.rootCheckDone c.ecc

def execArmedCommit (c : ChanId) (s : State) : Out :=
  s.onChan c Cx.armedCommit

def execSlotDrained (c : ChanId) (g : Fin 4) (s : State) : Out :=
  s.onChan c fun cx => cx.slotDrained g

end Sys2Proof.Machine
end

