-- ==== Sys2Proof/Machine/Fragments.lean ====
section
/-!
DEFINITION. The fragment table (R240 to R248).
-/

namespace Sys2Proof.Machine

open Sys2Proof

/-- CONTEXT address of fragment table entry `i` (R506). -/
def fragAddr (i : Nat) : Nat := 0x140000 + 32 * i

def Cx.fragLe (cx : Cx) (i off n : Nat) : Nat := Sparse.le cx.ch.ctxm (fragAddr i + off) n

def Cx.fragValid (cx : Cx) (i : Nat) : Bool := nbit (cx.fragLe i 0x1C 4) 31
def Cx.fragLast (cx : Cx) (i : Nat) : Bool := nbit (cx.fragLe i 0x1C 4) 30
def Cx.fragStamp (cx : Cx) (i : Nat) : Nat := nbits (cx.fragLe i 0x14 4) 31 16
def Cx.fragGen (cx : Cx) (i : Nat) : Nat := nbits (cx.fragLe i 0x18 4) 29 28

/-- The slot that an entry holds, if it is valid (R246). -/
def Cx.fragSlot (cx : Cx) (i : Nat) : Option Nat :=
  if cx.fragValid i then some (cx.fragGen i) else none

/-- VALID_COUNT and the hold counts of the slots follow a change of an entry (R246). -/
def Cx.fragHoldChange (cx : Cx) (old new : Option Nat) : Cx :=
  let v := cx.fld Reg.CH_FRAG_STATUS F.CH_FRAG_STATUS_VALID_COUNT
  let cx := cx.setf Reg.CH_FRAG_STATUS F.CH_FRAG_STATUS_VALID_COUNT
    (v + b2n new.isSome - b2n old.isSome)
  if old = new then cx
  else
    let cx := match old with | some g => cx.fragHold g false | none => cx
    match new with | some g => cx.fragHold g true | none => cx

/-- Write bytes of an entry (R240, R246). -/
def Cx.putFrag (cx : Cx) (i off : Nat) (bs : List Byte) : Cx :=
  let old := cx.fragSlot i
  let cx := { cx with ch := { cx.ch with ctxm := Sparse.putBytes cx.ch.ctxm (fragAddr i + off) bs } }
  cx.fragHoldChange old (cx.fragSlot i)

/-- What a fragment is looked up by: the 22 bytes of an entry from 0x00 (R240, R241). -/
def fragTag (p : Parsed) (up : Bool) : List Byte :=
  let tag (a : List Byte) : Nat := if p.ver = 6 then crc64 a else beNat a
  leBytes 8 (tag p.src) ++ leBytes 8 (tag p.dst) ++ leBytes 4 p.fragId ++
    leBytes 2 (p.fragProto % 256 + b2n (p.ver == 6) * 2 ^ 8 + b2n up * 2 ^ 9)

/-- The set of a fragment (R241). -/
def fragSet (tag : List Byte) : Nat := crc32c tag % 256

/-- The entry matches (R241). -/
def Cx.fragMatch (cx : Cx) (tag : List Byte) (i : Nat) : Bool :=
  cx.fragValid i && (Sparse.bytes cx.ch.ctxm (fragAddr i) 20 == tag.take 20) &&
    cx.fragLe i 0x14 2 % 2 ^ 10 == leNat (tag.drop 20)

def Cx.fragFind (cx : Cx) (tag : List Byte) : Option Nat :=
  ((List.range 4).map fun w => 4 * fragSet tag + w).find? fun i => cx.fragMatch tag i

/-- Age of an entry's stamp in units of 65.536 µs. -/
def Cx.fragAge (cx : Cx) (i : Nat) : Nat :=
  (cx.hl.shortTime.toNat / 65536 + 65536 - cx.fragStamp i) % 65536

/-- The entry with the oldest stamp among those given; ties go to the lowest (R243). -/
def Cx.fragOldest (cx : Cx) : List Nat → Option Nat
  | [] => none
  | i :: l => match cx.fragOldest l with
    | none => some i
    | some j => if cx.fragAge j ≤ cx.fragAge i then some i else some j

/-- The way that an insert takes (R243). -/
def Cx.fragVictim (cx : Cx) (tag : List Byte) : Nat :=
  let ways := (List.range 4).map fun w => 4 * fragSet tag + w
  match cx.fragFind tag with
  | some i => i
  | none => match ways.find? fun i => !cx.fragValid i with
    | some i => i
    | none => match cx.fragOldest (ways.filter cx.fragLast) with
      | some i => i
      | none => (cx.fragOldest ways).getD 0

/-- Insert the decision of a first fragment (R243). (DEDUCED, log entry 55) -/
def Cx.fragInsert (cx : Cx) (tag : List Byte) (rule ctx gen ind : Nat) : Cx :=
  let i := cx.fragVictim tag
  let evict := cx.fragValid i && !cx.fragMatch tag i
  let cx := cx.putFrag i 0
    (tag ++ leBytes 2 (cx.hl.shortTime.toNat / 65536) ++
      leBytes 4 (rule % 2 ^ 13 + ctx % 2 ^ 14 * 2 ^ 14 + gen % 4 * 2 ^ 28) ++
      leBytes 4 (ind % 512 + 2 ^ 31))
  (cx.when evict fun cx => cx.inc Cnt.CH_CNT_FRAG_EVICT).inc Cnt.CH_CNT_FRAG_FIRST

/-- A later fragment hits entry `i` (R244). -/
def Cx.fragHit (cx : Cx) (i : Nat) (last : Bool) : Cx :=
  let w := cx.fragLe i 0x1C 4
  let w := if last && !nbit w 30 then w + 2 ^ 30 else w
  ((cx.putFrag i 0x16 (leBytes 2 (cx.hl.shortTime.toNat / 65536))).putFrag i 0x1C (leBytes 4 w)).inc
    Cnt.CH_CNT_FRAG_HIT

/-- Invalidate an entry. -/
def Cx.fragClear (cx : Cx) (i : Nat) : Cx :=
  cx.putFrag i 0x1C (leBytes 4 (cx.fragLe i 0x1C 4 % 2 ^ 31))

/-- The age limit of an entry in ns (R247). -/
def Cx.fragLimit (cx : Cx) (i : Nat) : Nat :=
  if cx.fragLast i then 1000000 * max 1 (cx.fld Reg.CH_FRAG_CFG F.CH_FRAG_CFG_LAST_AGE)
  else 1000000 * max 1 (min 2000 (cx.fld Reg.CH_FRAG_CFG F.CH_FRAG_CFG_AGE))

/-- The set time has passed since the end of the unit that STAMP names (R247). -/
def Cx.fragExpired (cx : Cx) (i : Nat) : Bool :=
  let now := cx.hl.shortTime.toNat
  let unitEnd := (cx.fragStamp i + 1) * 65536
  -- time since the end of the unit, in 2^32 ns; a time just before it counts as zero
  let d := (now + 2 ^ 32 - unitEnd % 2 ^ 32) % 2 ^ 32
  decide (cx.fragLimit i ≤ d) && decide (d < 2 ^ 32 - 65536)

/-- The sweep reaches entry `i` (R247). -/
def Cx.fragAgeOut (cx : Cx) (i : Nat) : Cx :=
  if cx.fragValid i && cx.fragExpired i && !cx.ch.coreStopped && !cx.modeIn [ModeCode.stop, ModeCode.halted] then
    (cx.fragClear i).inc Cnt.CH_CNT_FRAG_AGED
  else cx

/-- A write of CH_FRAG_CFG that clears EN invalidates every entry (R248). -/
def Cx.fragDisable (cx : Cx) : Cx :=
  (List.range 1024).foldl Cx.fragClear (cx.setf Reg.CH_FRAG_CFG F.CH_FRAG_CFG_EN 0)

/-- FRAG_AGE_OUT: the sweep reaches an entry. -/
def execFragAgeOut (c : ChanId) (i : Fin 1024) (s : State) : Out :=
  s.onChan c fun cx => cx.fragAgeOut i

/-- FRAG_TABLE_DISABLE: a write that clears CH_FRAG_CFG.EN. -/
def execFragTableDisable (c : ChanId) (s : State) : Out :=
  s.coreWrite c Cx.fragDisable

end Sys2Proof.Machine
end

