-- ==== Sys2Proof/Machine/Wake.lean ====
section
/-!
DEFINITION. Starting a Stop entry and waking (R468 to R471, R475 to R478, R480): shared by the sources that
stop and wake a channel.
-/

namespace Sys2Proof.Machine

open Sys2Proof

/-! Phases of the power sequencer (CH_PWR_STATUS.PHASE). -/
namespace Phase
def run : Nat := 0
def entering : Nat := 1
def stopped : Nat := 2
def waking : Nat := 3
def aborting : Nat := 4
end Phase

def Cx.phase (cx : Cx) : Nat := cx.fld Reg.CH_PWR_STATUS F.CH_PWR_STATUS_PHASE
def Cx.setPhase (cx : Cx) (p : Nat) : Cx := cx.setf Reg.CH_PWR_STATUS F.CH_PWR_STATUS_PHASE p

/-- Sub-blocks in the order in which entry asks them (R472). -/
def stopOrder : List Nat := [5, 1, 2, 4, 3, 8, 9, 6, 7]

/-- In an abort the sub-blocks asked before the one that refused are stopped until the last restart has ended (R474). -/
def Cx.subStopped (cx : Cx) (id : Nat) : Bool :=
  cx.phase == Phase.aborting &&
    decide (stopOrder.idxOf id < stopOrder.idxOf (cx.fld Reg.CH_STOP_REFUSER F.CH_STOP_REFUSER_ID))

def Cx.setPwr (cx : Cx) (p : Pwr) : Cx := { cx with ch := { cx.ch with pwr := p } }

/-! Wake sources (R475). -/
namespace Wk
def host : Nat := 0
def drill : Nat := 1
def timer : Nat := 2
def txDb : Nat := 3
def pattern : Nat := 4
def portAny : Nat := 5
def fwi : Nat := 6
def sync : Nat := 7
def firmware : Nat := 8
end Wk

/-- The wake starts: 0.1 µs later its step 1 ends (R479). (DEDUCED, log entry 78) -/
def Cx.startWake (cx : Cx) : Cx :=
  (cx.setPwr { cx.ch.pwr with wakeAt := cx.hl.stu.tick }).setPhase Phase.waking

/-- A wake source is recorded: during entry, in Stop, and until step 1 of the wake has ended (R475, R483).
(DEDUCED, log entry 78) -/
def Cx.srcOpen (cx : Cx) : Bool :=
  cx.phase == Phase.entering || cx.phase == Phase.stopped ||
    (cx.phase == Phase.waking && decide ((cx.hl.stu.tick - cx.ch.pwr.wakeAt).toNat < 100))

/-- A wake source occurs (R475, R480): its bit sets while it is recorded, and in Stop the wake starts.
(DEDUCED, log entry 78) -/
def Cx.wakeSource (cx : Cx) (bit : Nat) : Cx :=
  if cx.srcOpen then
    let cx := cx.setf Reg.CH_WAKE_SRC ⟨bit, 1⟩ 1
    if cx.phase = Phase.stopped then cx.startWake else cx
  else cx

/-- The channel is in Stop-watch, or its line island runs on while its core clock is stopped (R465). -/
def Cx.watching (cx : Cx) : Bool := cx.ch.coreStopped && cx.ch.pwr.watch

/-- The wake filter examines envelopes: from the start of an entry to Stop-watch to the end of the Stop (R475). -/
def Cx.filtering (cx : Cx) : Bool := cx.watching || (cx.phase == Phase.entering && cx.ch.pwr.watch)

/-- Its line island takes what arrives from the framer: not in Disabled (R623), not after a brown-out (R69),
not in Stop-dark (R465), and not in a handover target that has no lane yet (R542). -/
def Cx.lineOn (cx : Cx) : Bool :=
  !(cx.modeIn [ModeCode.disabled]) &&
    !(cx.mode == ModeCode.halted && cx.fld Reg.CH_HALT_CAUSE F.CH_HALT_CAUSE_CAUSE == Halt.brownOut) &&
    !(cx.ch.coreStopped && !cx.ch.pwr.watch) &&
    !(cx.mode == ModeCode.handover && cx.hoRole == 2 && !cx.resuming)

/-! ### The wake filter (R476, R477) -/

/-- The valid wake ports that name a port: some one, and one with WAKE_ANY. -/
def Cx.wakePort (cx : Cx) (port : Nat) (any : Bool) : Bool :=
  (List.range 16).any fun n =>
    let w := cx.get (Reg.CH_WAKE_PORT n)
    getB w F.CH_WAKE_PORT_VALID && getF w F.CH_WAKE_PORT_PORT == port && (!any || getB w F.CH_WAKE_PORT_WAKE_ANY)

/-- Payload bytes that pattern `n` selects. -/
def Cx.wakeMask (cx : Cx) (n : Nat) : List Nat :=
  (List.range 128).filter fun i => nbit (cx.get (Reg.CH_WAKE_MASK n (i / 32))).toNat (i % 32)

/-- An envelope matches pattern `n` (R477). -/
def Cx.wakeMatch (cx : Cx) (n : Nat) (payload : List Byte) : Bool :=
  let m := cx.wakeMask n
  nbit (cx.get Reg.CH_WAKE_CFG).toNat (16 + n) && !m.isEmpty && m.all (fun i => decide (i < payload.length)) &&
    crc16 (m.map fun i => payload.getD i 0) == cx.fld (Reg.CH_WAKE_CRC n) F.CH_WAKE_CRC_CRC

/-- The wake filter examines an envelope of an accepted line frame (R476, R477). (DEDUCED, log entry 79) -/
def Cx.wakeFilter (cx : Cx) (port key : Nat) (payload : List Byte) : Cx :=
  if cx.wakePort port true then cx.wakeSource Wk.portAny
  else if cx.wakePort port false ∧ key = 0 then
    match (List.range 16).find? fun n => cx.wakeMatch n payload with
    | some n =>
      let cx := if nbit (cx.get Reg.CH_WAKE_SRC).toNat Wk.pattern || !cx.srcOpen then cx
        else cx.setf Reg.CH_WAKE_SRC F.CH_WAKE_SRC_PATTERN n
      cx.wakeSource Wk.pattern
    | none => cx
  else cx

/-! ### Starting an entry (R468, R471, R472 step 1) -/

/-- The entry sequence starts: PHASE becomes ENTERING, and CH_WAKE_SRC and CH_SEAL_FAIL are cleared. -/
def Cx.startEntry (cx : Cx) (watch forced : Bool) : Cx :=
  let cx := (((cx.setPhase Phase.entering).put Reg.CH_WAKE_SRC 0).put Reg.CH_SEAL_FAIL_LO 0).put
    Reg.CH_SEAL_FAIL_HI 0
  cx.setPwr { cx.ch.pwr with watch := watch, forced := forced, asked := cx.shortTime }

def Cx.permit (cx : Cx) : Bool := cx.flg Reg.CH_PWR_STATUS F.CH_PWR_STATUS_PERMIT

/-- A forced entry may start (R471); not in the source of a handover (R547). -/
def Cx.mayForce (cx : Cx) : Bool :=
  cx.mode == ModeCode.service && cx.permit && cx.phase == Phase.run && !cx.hoSource

/-- An errored line frame counts in the second that holds its start marker (R577). -/
def Pm.errored (p : Pm) : Pm :=
  match p.held with
  | some h => { p with held := some { h with err := h.err + 1 } }
  | none => { p with err := p.err + 1 }

/-- The line frame that is arriving counts as errored, once (R577). -/
def Cx.lfErrored (cx : Cx) : Cx :=
  match cx.ch.ds.cur with
  | some lf =>
    if lf.errd then cx
    else { cx with ch := { cx.ch with
      ds := { cx.ch.ds with cur := some { lf with errd := true } }
      pm := cx.ch.pm.errored } }
  | none => cx

/-- A sync loss in the present second (R577). -/
def Cx.pmLoss (cx : Cx) : Cx := { cx with ch := { cx.ch with pm := { cx.ch.pm with loss := true } } }

end Sys2Proof.Machine
end

