-- ==== Sys2Proof/Machine/Queues.lean ====
section
/-!
DEFINITION. Operations on the receive and transmit queues (chapter 10): watched lines, tails, prefetched
slots, checking descriptors, buffer lists, the head of a receive queue, and the completion of a transmit
frame.
-/

namespace Sys2Proof.Machine

open Sys2Proof

/-- Number of a queue in DETAIL of R62: receive 0 to 255, transmit 256 to 511. -/
def queueNo (tx : Bool) (q : Nat) : Nat := if tx then 256 + q else q

def qCtl (tx : Bool) (q : Nat) : Nat := if tx then Reg.CH_TXQ_CTL q else Reg.CH_RXQ_CTL q
def qStart (tx : Bool) (q : Nat) : Nat := if tx then Reg.CH_TXQ_START q else Reg.CH_RXQ_START q
def qHead (tx : Bool) (q : Nat) : Nat := if tx then Reg.CH_TXQ_HEAD q else Reg.CH_RXQ_HEAD q
def qTail (tx : Bool) (q : Nat) : Nat := if tx then Reg.CH_TXQ_TAIL q else Reg.CH_RXQ_TAIL q

/-- EN, SIZE_LOG2, CRING and IDLE stand at the same bits in both kinds of queue entry. -/
def Cx.qEn (cx : Cx) (tx : Bool) (q : Nat) : Bool := cx.flg (qCtl tx q) F.CH_RXQ_CTL_EN
def Cx.qIdle (cx : Cx) (tx : Bool) (q : Nat) : Bool := cx.flg (qCtl tx q) F.CH_RXQ_CTL_IDLE
/-- DEDUCED, log entry 67. -/
def Cx.qLog2 (cx : Cx) (tx : Bool) (q : Nat) : Nat := cx.fld (qCtl tx q) F.CH_RXQ_CTL_SIZE_LOG2
def Cx.qRing (cx : Cx) (tx : Bool) (q : Nat) : Nat := cx.fld (qCtl tx q) F.CH_RXQ_CTL_CRING

def Cx.rxq (cx : Cx) (q : Nat) : RxQ := Sparse.get (fun _ => RxQ.empty) cx.ch.rings.rxq q
def Cx.txq (cx : Cx) (q : Nat) : TxQ := Sparse.get (fun _ => TxQ.empty) cx.ch.rings.txq q

def Cx.setRxq (cx : Cx) (q : Nat) (x : RxQ) : Cx :=
  cx.setRings { cx.ch.rings with rxq := Sparse.set (fun _ => RxQ.empty) cx.ch.rings.rxq q x }

def Cx.setTxq (cx : Cx) (q : Nat) (x : TxQ) : Cx :=
  cx.setRings { cx.ch.rings with txq := Sparse.set (fun _ => TxQ.empty) cx.ch.rings.txq q x }

/-! ### Doorbell lines -/

/-- Entry `e` of line `k` belongs to an enabled queue or completion ring (R348). -/
def Cx.entryLive (cx : Cx) (k e : Nat) : Bool :=
  if k < 16 then cx.qEn false (16 * k + e)
  else if k < 32 then cx.qEn true (16 * (k - 16) + e)
  else if k < 36 then cx.flg (Reg.CH_CRING_CTL (16 * (k - 32) + e)) F.CH_CRING_CTL_EN
  else false

/-- The line is watched (R350). -/
def Cx.lineWatched (cx : Cx) (k : Nat) : Bool :=
  (List.range 16).any fun e => cx.entryLive k e

/-- Host address of a doorbell line (R348). -/
def Cx.lineAddr (cx : Cx) (k : Nat) : DWord :=
  BitVec.ofNat 64 ((cx.get Reg.CH_DB_BASE_LO).toNat / 4096 * 4096 +
    (cx.get Reg.CH_DB_BASE_HI).toNat * 2 ^ 32 + 64 * k)

/-- Number of lines watched in the device (R592). -/
def Headland.addWatch (h : Headland) : Headland :=
  h.setf Reg.HL_HP_WATCH F.HL_HP_WATCH_COUNT (h.fld Reg.HL_HP_WATCH F.HL_HP_WATCH_COUNT + 1)

def Headland.dropWatch (h : Headland) : Headland :=
  h.setf Reg.HL_HP_WATCH F.HL_HP_WATCH_COUNT (h.fld Reg.HL_HP_WATCH F.HL_HP_WATCH_COUNT - 1)

/-- A line stops being watched, and the host port says so at once (R592). -/
def Headland.unwatched (h : Headland) (line : DWord) : Headland :=
  (drainHead [.unwatch line] h.dropWatch).2

/-- Announce that a line becomes or stops being watched (R592); `was` says whether it was before. -/
def Cx.watchChange (cx : Cx) (k : Nat) (was : Bool) : Cx :=
  let now := cx.lineWatched k
  if now && !was then (cx.onHl Headland.addWatch).push (.watch (cx.lineAddr k))
  else if was && !now then (cx.onHl Headland.dropWatch).push (.unwatch (cx.lineAddr k))
  else cx

/-- Issue a host read, or note one more for a read that is outstanding (R351). -/
def issueRead (w : ReadWhat) : List ReadReq → List ReadReq
  | [] => [⟨w, 0, false⟩]
  | r :: l => if r.what = w then { r with again := true } :: l else r :: issueRead w l

/-- A trigger of R351. In Disabled and Halted no read starts and the trigger is not kept (R354). -/
def Cx.trigger (cx : Cx) (k : Nat) : Cx :=
  if cx.lineWatched k && !cx.modeIn [ModeCode.disabled, ModeCode.halted] then
    cx.setRings { cx.ch.rings with reads := issueRead (.doorbell (Fin.ofNat 36 k)) cx.ch.rings.reads }
  else cx

/-- Every watched line is read, as when the channel enters Acquire or Service (R354). -/
def Cx.triggerAll (cx : Cx) : Cx :=
  (List.range 36).foldl Cx.trigger cx

/-- The doorbell line of a queue (R348). -/
def lineOf (tx : Bool) (q : Nat) : Nat := if tx then 16 + q / 16 else q / 16

/-! ### Descriptors -/

/-- Bits of a 32-byte descriptor at a byte offset. -/
def dbits (bs : List Byte) (off n hi lo : Nat) : Nat :=
  nbits (leNat ((bs.drop off).take n)) hi lo

def slotOwn (bs : List Byte) : Nat := dbits bs 0 4 31 31

/-- The condition of R368 that an RX_BUF descriptor meets, 0 when none. -/
def rxMalformed (bs : List Byte) : Nat :=
  let len := dbits bs 4 4 14 0
  if dbits bs 0 4 3 0 ≠ 1 then 1
  else if dbits bs 0 4 30 4 ≠ 0 ∨ dbits bs 4 4 31 15 ≠ 0 ∨ dbits bs 0x10 8 63 0 ≠ 0 then 2
  else if len = 0 then 3
  else if 16384 < len then 4
  else if dbits bs 8 8 5 0 ≠ 0 ∨ len % 64 ≠ 0 then 5
  else 0

def rxBufOf (idx : Word) (bs : List Byte) : RxBuf :=
  ⟨idx, dbits bs 4 4 14 0, BitVec.ofNat 64 (dbits bs 8 8 63 0), BitVec.ofNat 64 (dbits bs 0x18 8 63 0), false⟩

/-- The fields of a transmit descriptor (R358, R359). -/
def txDescOf (bs : List Byte) : TxDesc :=
  { first := dbits bs 0 4 3 0 == 2
    last := dbits bs 0 4 4 4 == 1
    tsReq := dbits bs 0 4 5 5 == 1
    ltEn := dbits bs 0 4 6 6 == 1
    nbuf := dbits bs 0 4 12 8
    frameLen := dbits bs 0 4 29 16
    launch := BitVec.ofNat 32 (dbits bs 4 4 31 0)
    addr := BitVec.ofNat 64 (dbits bs 8 8 63 0)
    bufLen := dbits bs 0x10 4 13 0
    tsTag := dbits bs 0x14 4 15 0
    cookie := BitVec.ofNat 64 (dbits bs 0x18 8 63 0) }

/-- Where the next descriptor stands: due to be a TX_FIRST, or descriptor `k + 1` of a chain of `n` whose
first `k` hold `sum` bytes of `flen`. -/
structure ChainPos where
  n    : Nat
  k    : Nat
  sum  : Nat
  flen : Nat
  deriving DecidableEq, Repr

/-- The position after checked descriptors. -/
def chainPos : ChainPos → List TxDesc → ChainPos
  | p, [] => p
  | p, d :: l =>
    let p := if d.first then ⟨d.nbuf, 1, d.bufLen, d.frameLen⟩ else { p with k := p.k + 1, sum := p.sum + d.bufLen }
    chainPos (if p.k = p.n then ⟨0, 0, 0, 0⟩ else p) l

/-- The condition of R368 that a transmit descriptor meets at a position, 0 when none. -/
def txMalformed (p : ChainPos) (bs : List Byte) : Nat :=
  let ty := dbits bs 0 4 3 0
  let d := txDescOf bs
  let n := if d.first then d.nbuf else p.n
  let k := if d.first then 1 else p.k + 1
  let sum := if d.first then d.bufLen else p.sum + d.bufLen
  let flen := if d.first then d.frameLen else p.flen
  if ty ≠ 2 ∧ ty ≠ 3 then 1
  else if d.first ∧ (dbits bs 0 4 7 7 ≠ 0 ∨ dbits bs 0 4 15 13 ≠ 0 ∨ dbits bs 0 4 30 30 ≠ 0 ∨
      dbits bs 0x10 4 31 14 ≠ 0 ∨ dbits bs 0x14 4 31 16 ≠ 0) then 2
  else if !d.first ∧ (dbits bs 0 4 30 5 ≠ 0 ∨ dbits bs 4 4 31 0 ≠ 0 ∨ dbits bs 0x10 4 31 14 ≠ 0 ∨
      dbits bs 0x14 12 95 0 ≠ 0) then 2
  else if (d.first ∧ d.frameLen = 0) ∨ d.bufLen = 0 then 3
  else if d.first ∧ 15996 < d.frameLen then 4
  else if dbits bs 8 8 2 0 ≠ 0 ∨ (!d.last ∧ d.bufLen % 64 ≠ 0) then 5
  else if d.first ∧ (d.nbuf = 0 ∨ 16 < d.nbuf) then 6
  else if d.first ≠ (p.n == 0) then 7
  else if d.last ≠ (k == n) then 7
  else if (d.last ∨ k = n) ∧ sum ≠ flen then 7
  else 0

/-- A malformed descriptor halts the channel (R369, R381). -/
def Cx.malformed (cx : Cx) (tx : Bool) (q cond : Nat) (idx : Word) : Cx :=
  let n := queueNo tx q
  let cx := if cx.get Reg.CH_RING_FAULT = 0 then
      (cx.put Reg.CH_RING_FAULT (BitVec.ofNat 32 (n + cond * 4096))).put Reg.CH_RING_FAULT_IDX idx
    else cx
  cx.halt Halt.malformedDesc n

/-- A slot below P whose most recent read shows the expected mark (R363). -/
def committed (held : List HeldSlot) (c p idx : Word) : Option HeldSlot :=
  if idxDiff idx c < idxDiff p c then held.find? fun h => h.idx == idx && h.matched else none

def dropSlot (idx : Word) (l : List HeldSlot) : List HeldSlot :=
  l.filter fun h => h.idx != idx

/-! ### The head of a receive queue (R371 to R373) -/

/-- How many of the unused buffers it takes to hold `w` bytes (R371). -/
def bufsNeeded : Nat → Nat → List RxBuf → Option Nat
  | _, _, [] => none
  | k, w, b :: l => if w ≤ b.len then some (k + 1) else bufsNeeded (k + 1) (w - b.len) l

/-- The buffer need of the head frame is met. -/
def Cx.rxNeed (cx : Cx) (q : Nat) : Option Nat :=
  match (cx.rxq q).frames with
  | [] => none
  | d :: _ => bufsNeeded 0 (cx.deliverLen d.frame d.trunc) ((cx.rxq q).bufs.filter fun b => !b.used)

/-- A frame-holding delivery lets its references go (R276). -/
def Cx.releaseFrame (cx : Cx) (f : Frame) : Cx :=
  cx.releaseChain Owner.committed f.cell

/-- Drop the head frame of a receive queue. -/
def Cx.rxDropHead (cx : Cx) (q cnt : Nat) : Cx :=
  match (cx.rxq q).frames with
  | [] => cx
  | d :: l =>
    ((cx.setRxq q { cx.rxq q with frames := l, holding := false }).releaseFrame d.frame).inc cnt

/-- A frame becomes head, or the list has grown: the need is tested (R372, R373). `n` bounds the frames
dropped one after another. (DEDUCED, log entry 116) -/
def Cx.rxHead (cx : Cx) (q : Nat) : Nat → Cx
  | 0 => cx
  | n + 1 =>
    let x := cx.rxq q
    match x.frames with
    | [] => cx
    | d :: _ =>
      if (cx.rxNeed q).isSome then cx
      else if x.bufs.length = 16 ∧ (bufsNeeded 0 (cx.deliverLen d.frame d.trunc) x.bufs).isNone then
        (cx.rxDropHead q Cnt.CH_CNT_RX_TOO_LONG).rxHead q n
      else if x.holding then cx
      else if cx.fld Reg.CH_RXQ_HOLD F.CH_RXQ_HOLD_HOLD_US = 0 then
        (cx.rxDropHead q Cnt.CH_CNT_RX_NO_HOST_BUFFER).rxHead q n
      else cx.setRxq q { x with holding := true }

def Cx.rxHeadCheck (cx : Cx) (q : Nat) : Cx :=
  cx.rxHead q ((cx.rxq q).frames.length + 1)

/-- A delivery enters a receive queue (R277). (DEDUCED, log entry 57) -/
def Cx.rxEnqueue (cx : Cx) (q : Nat) (d : RxDeliv) : Cx :=
  let x := cx.rxq q
  let cx := cx.setRxq q { x with frames := x.frames ++ [d] }
  if x.frames.isEmpty then cx.rxHeadCheck q else cx

/-! ### Taking slots (R365, R370) -/

/-- Take committed receive slots into the buffer list. -/
def Cx.takeRx (cx : Cx) (q : Nat) : Nat → Cx
  | 0 => cx
  | n + 1 =>
    let x := cx.rxq q
    let c := cx.get (qHead false q)
    match (if x.bufs.length < 16 then committed x.held c (cx.get (qTail false q)) c else none) with
    | none => cx
    | some h =>
      if rxMalformed h.bytes ≠ 0 then cx.malformed false q (rxMalformed h.bytes) c
      else
        let cx := cx.setRxq q { x with bufs := x.bufs ++ [rxBufOf c h.bytes], held := dropSlot c x.held }
        ((cx.put (qHead false q) (c + 1)).inc Cnt.CH_CNT_RX_DESC).takeRx q n

/-- The checked descriptors end a chain. -/
def TxQ.chainWhole (x : TxQ) : Bool :=
  !x.descs.isEmpty && decide (chainPos ⟨0, 0, 0, 0⟩ x.descs = ⟨0, 0, 0, 0⟩)

/-- Take committed transmit slots in index order, up to the end of the queue's next chain (R365, R366: one
frame per turn). (DEDUCED, log entry 64) -/
def Cx.takeTx (cx : Cx) (q : Nat) : Nat → Cx
  | 0 => cx
  | n + 1 =>
    let x := cx.txq q
    let c := cx.get (qHead true q)
    let idx := c + BitVec.ofNat 32 x.descs.length
    match (if x.chainWhole then none else committed x.held c (cx.get (qTail true q)) idx) with
    | none => cx
    | some h =>
      let m := txMalformed (chainPos ⟨0, 0, 0, 0⟩ x.descs) h.bytes
      if m ≠ 0 then cx.malformed true q m idx
      else (cx.setTxq q { x with descs := x.descs ++ [txDescOf h.bytes], held := dropSlot idx x.held }).takeTx q n

/-- The queue uses what its tail and its slots allow. -/
def Cx.takeSlots (cx : Cx) (tx : Bool) (q : Nat) : Cx :=
  if tx then cx.takeTx q 64 else (cx.takeRx q 17).rxHeadCheck q

def Cx.heldSlots (cx : Cx) (tx : Bool) (q : Nat) : List HeldSlot :=
  if tx then (cx.txq q).held else (cx.rxq q).held

def Cx.setHeld (cx : Cx) (tx : Bool) (q : Nat) (l : List HeldSlot) : Cx :=
  if tx then cx.setTxq q { cx.txq q with held := l } else cx.setRxq q { cx.rxq q with held := l }

/-- A slot read returns (R362 to R364): its mark is judged, and a slot below P that does not match is
counted once. -/
def Cx.slotRead (cx : Cx) (tx : Bool) (q : Nat) (idx : Word) (bs : List Byte) : Cx :=
  let c := cx.get (qHead tx q)
  let p := cx.get (qTail tx q)
  let size := 2 ^ cx.qLog2 tx q
  let old := (cx.heldSlots tx q).find? fun h => h.idx == idx
  let taken := if tx then (cx.txq q).descs.length else 0
  if idxDiff idx c < taken ∨ min (idxDiff p c + 8) size ≤ idxDiff idx c ∨ (old.any fun h => h.matched)
  then cx
  else
    let m := slotOwn bs == phaseOf idx (cx.qLog2 tx q)
    let below := decide (idxDiff idx c < idxDiff p c)
    let waited := old.any fun h => h.waited
    let cx := cx.when (below && !m && !waited) fun cx => cx.inc Cnt.CH_CNT_RING_OWN_WAIT
    cx.setHeld tx q (dropSlot idx (cx.heldSlots tx q) ++ [⟨idx, bs, m, waited || (below && !m)⟩])

/-- Consecutive slots of one host read. -/
def Cx.slotReads (cx : Cx) (tx : Bool) (q : Nat) (idx : Word) : List (List Byte) → Cx
  | [] => cx
  | bs :: l => (cx.slotRead tx q idx bs).slotReads tx q (idx + 1) l

/-- A tail read for an enabled queue (R353), and what P passes (R363). One of a transmit queue that is accepted during a
Stop entry is a wake source (R475). -/
def Cx.tailRead (cx : Cx) (tx : Bool) (q : Nat) (t : Word) : Cx :=
  let c := cx.get (qHead tx q)
  let p := cx.get (qTail tx q)
  if t = p then cx
  else if idxDiff p c ≤ idxDiff t c ∧ idxDiff t c ≤ 2 ^ cx.qLog2 tx q then
    let passed := (cx.heldSlots tx q).filter fun h =>
      decide (idxDiff p c ≤ idxDiff h.idx c) && decide (idxDiff h.idx c < idxDiff t c)
    let cx := (cx.put (qTail tx q) t).idleRestart
    let cx := cx.add Cnt.CH_CNT_RING_PF_HIT (passed.filter fun h => h.matched).length
    let cx := cx.add Cnt.CH_CNT_RING_REFETCH (passed.filter fun h => !h.matched).length
    let cx := cx.when (tx && cx.phase == Phase.entering && cx.flg Reg.CH_WAKE_CFG F.CH_WAKE_CFG_TX_DB) fun cx =>
      cx.wakeSource Wk.txDb
    cx.takeSlots tx q
  else (cx.inc Cnt.CH_CNT_RING_BAD_TAIL).raise Ev.ringFault (queueNo tx q + 0x1000)

/-- One entry of a doorbell line is applied (R349). -/
def Cx.applyEntry (cx : Cx) (k e : Nat) (t : Word) : Cx :=
  if cx.entryLive k e = false then cx
  else if k < 16 then cx.tailRead false (16 * k + e) t
  else if k < 32 then cx.tailRead true (16 * (k - 16) + e) t
  else (cx.consIndex (16 * (k - 32) + e) t).1

/-- All entries of a line, in entry order. -/
def Cx.applyLine (cx : Cx) (k : Nat) : Nat → List Word → Cx
  | _, [] => cx
  | e, t :: l => (cx.applyEntry k e t).applyLine k (e + 1) l

/-! ### Transmit frames and their completion -/

/-- The completion of a transmit frame fed by descriptors falls due (R384, R386 to R388). -/
def Cx.txComplete (cx : Cx) (s : TxSrc) (status ftype : Nat) (ts : Option DWord) : Cx :=
  cx.cplDue
    { ring := cx.qRing true s.queue, status := status, tx := true, queue := s.queue, nbuf := s.nbuf,
      mirror := false, trunc := false, copy := false, ftype := ftype,
      info := if s.tsReq then s.tsTag else 0, len := s.flen, index := s.index, cookie := s.cookie,
      time := ts.getD cx.time8, tsValid := ts.isSome }

def Cx.txCompleteOpt (cx : Cx) (s : Option TxSrc) (status ftype : Nat) (ts : Option DWord) : Cx :=
  match s with
  | some s => cx.txComplete s status ftype ts
  | none => cx

/-- An enabled transmit queue takes a frame (R189, R277). -/
def Cx.txEnqueue (cx : Cx) (q : Nat) (f : TxFrame) : Cx :=
  cx.setTxq q { cx.txq q with frames := (cx.txq q).frames ++ [f] }

/-- A frame in a transmit queue is flushed (R377). -/
def Cx.txFlush (cx : Cx) (f : TxFrame) : Cx :=
  ((cx.releaseFrame f.frame).inc Cnt.CH_CNT_TX_FLUSHED).txCompleteOpt f.src CplStatus.flushed
    f.frame.ftype none

/-- A receive buffer owed a FLUSHED completion (R377, R383, R393). -/
def Cx.rxFlushBuf (cx : Cx) (q : Nat) (b : RxBuf) : Cx :=
  let r := cx.qRing false q
  match cx.reserveCpl r (.flush q) with
  | (cx, true) =>
    (cx.inc Cnt.CH_CNT_RX_FLUSHED).cplDue
      { ring := r, status := CplStatus.flushed, tx := false, queue := q, nbuf := 1, mirror := false,
        trunc := false, copy := false, ftype := 0, info := 0, len := 0, index := b.idx,
        cookie := b.cookie, time := cx.time8, tsValid := false }
  | (cx, false) => cx.setRxq q { cx.rxq q with flush := (cx.rxq q).flush ++ [b] }

/-- Members of an allocation slot among the enabled transmit queues (R195). (DEDUCED, log entry 18) -/
def Cx.slotMembers (cx : Cx) (slot : Nat) : List Nat :=
  (List.range 256).filter fun q =>
    cx.qEn true q && cx.fld (Reg.CH_TXQ_MAP q) F.CH_TXQ_MAP_SLOT == slot

/-- A write of EN = 1 meets the conditions of R375, given the queue's SIZE_LOG2 and CRING. (DEDUCED, log entry 15) -/
def Cx.enableOk (cx : Cx) (tx : Bool) (q : Nat) : Bool :=
  cx.qIdle tx q && decide (6 ≤ cx.qLog2 tx q) && cx.flg Reg.CH_DB_BASE_LO F.CH_DB_BASE_LO_VALID &&
    cx.flg (Reg.CH_CRING_CTL (cx.qRing tx q)) F.CH_CRING_CTL_EN &&
    (!tx || decide ((cx.slotMembers (cx.fld (Reg.CH_TXQ_MAP q) F.CH_TXQ_MAP_SLOT)).length < 8))

/-- Reads of a queue's descriptors that are outstanding are not waited for, nor their failures counted, any more. -/
def Cx.dropReads (cx : Cx) (tx : Bool) (q : Nat) : Cx :=
  cx.setRings { cx.ch.rings with reads := cx.ch.rings.reads.filter fun r => match r.what with
    | .desc t p _ => !(t == tx && p.val == q)
    | .doorbell _ => true }

/-- What an accepted enable does (R375). -/
def Cx.queueEnable (cx : Cx) (tx : Bool) (q : Nat) : Cx :=
  let k := lineOf tx q
  let was := cx.lineWatched k
  let start := cx.get (qStart tx q)
  let cx := ((cx.put (qHead tx q) start).put (qTail tx q) start).dropReads tx q
  let cx := if tx then cx.setTxq q { cx.txq q with held := [], descs := [], storing := none, waited := false }
            else cx.setRxq q { cx.rxq q with held := [], bufs := [] }
  let cx := (cx.setf (qCtl tx q) F.CH_RXQ_CTL_IDLE 0).setf (qCtl tx q) F.CH_RXQ_CTL_EN 1
  (cx.watchChange k was).trigger k

/-- Take a queue down (R377). `disable`: the take-down belongs to an orderly disable, whose dropped
receive frames are counted in CH_CNT_DISABLE_DROP (R379). (DEDUCED, log entry 64) -/
def Cx.takeDown (cx : Cx) (tx : Bool) (q : Nat) (disable : Bool) : Cx :=
  if cx.qEn tx q = false then cx
  else
    let k := lineOf tx q
    let was := cx.lineWatched k
    let cx := (cx.setf (qCtl tx q) F.CH_RXQ_CTL_EN 0).watchChange k was
    let cx := (cx.setHeld tx q []).dropReads tx q
    if tx then
      let x := cx.txq q
      let cx := cx.setTxq q { x with
        frames := x.frames.filter fun f => decide (0 < f.sent)
        descs := if x.storing.isSome then x.descs else []
        waited := false }
      (x.frames.filter fun f => f.sent == 0).foldl Cx.txFlush cx
    else
      let x := cx.rxq q
      let cx := cx.setRxq q { x with frames := [], holding := false, bufs := x.bufs.filter fun b => b.used }
      let cnt := if disable then Cnt.CH_CNT_DISABLE_DROP else Cnt.CH_CNT_RX_FLUSH_DROP
      let cx := x.frames.foldl (fun cx d => (cx.releaseFrame d.frame).inc cnt) cx
      (x.bufs.filter fun b => !b.used).foldl (fun cx b => cx.rxFlushBuf q b) cx

/-- Frames anywhere in the channel whose completion queue `q` owes: in a queue, or staged whole and not sent yet. -/
def Cx.txOwes (cx : Cx) (q : Nat) : Bool :=
  (cx.ch.rings.txq.any fun e => e.2.frames.any fun f => f.src.any fun s => s.queue == q) ||
    cx.ch.us.bursts.any fun b => b.done.any fun f => f.src.any fun s => s.queue == q

/-- Every completion owed under R377 has been written (R378). -/
def Cx.owesNothing (cx : Cx) (tx : Bool) (q : Nat) : Bool :=
  !(cx.ch.rings.hold.any fun e => e.tx == tx && e.queue == q) &&
  (if tx then
    (cx.txq q).storing.isNone && (cx.txq q).frames.isEmpty && !cx.txOwes q
  else (cx.rxq q).flush.isEmpty && (cx.rxq q).frames.isEmpty && (cx.rxq q).bufs.isEmpty)

/-- IDLE sets (R378). -/
def Cx.queueIdle (cx : Cx) (tx : Bool) (q : Nat) : Cx :=
  if cx.qEn tx q = false ∧ cx.qIdle tx q = false ∧ cx.owesNothing tx q = true then
    cx.setf (qCtl tx q) F.CH_RXQ_CTL_IDLE 1
  else cx

end Sys2Proof.Machine
end

