-- ==== Sys2Proof/Machine/Classify.lean ====
section
/-!
DEFINITION. Classification (chapter 07): the tree walk, the rule record, the decision context, load
spreading, and the deliveries of a frame at its outcome.
-/

namespace Sys2Proof.Machine

open Sys2Proof

/-! ### The walk (R255 to R261) -/

/-- A node (R255). -/
structure Node where
  mask  : Nat
  value : Nat
  hi    : Nat
  ctl   : Nat
  deriving DecidableEq, Repr

def Cx.node (cx : Cx) (i : Nat) : Node :=
  ⟨cx.nodeLe i 0 8, cx.nodeLe i 8 8, cx.nodeLe i 0x10 8, cx.nodeLe i 0x18 8⟩

def Node.tIndex (n : Node) : Nat := nbits n.ctl 15 0
def Node.tKind (n : Node) : Nat := nbits n.ctl 17 16
def Node.fIndex (n : Node) : Nat := nbits n.ctl 33 18
def Node.fKind (n : Node) : Nat := nbits n.ctl 35 34
def Node.offset (n : Node) : Nat := nbits n.ctl 41 36
def Node.width (n : Node) : Nat := if nbits n.ctl 44 42 = 0 then 8 else nbits n.ctl 44 42
def Node.testKind (n : Node) : Nat := nbits n.ctl 46 45
def Node.genMask (n : Node) : Nat := nbits n.ctl 51 48

/-- The tested field: WIDTH key bytes, big-endian; a byte past key byte 63 reads as zero (R257). -/
def keyField (key : List Byte) (off width : Nat) : Nat :=
  beNat ((List.range width).map fun i => key.getD (off + i) 0)

/-- The node's test (R257). -/
def Node.test (n : Node) (key : List Byte) : Bool :=
  let v := keyField key n.offset n.width &&& n.mask
  if n.testKind = 1 then v == n.value else decide (n.value ≤ v) && decide (v ≤ n.hi)

/-- Walk from node `idx`, with `n` nodes left, and the nodes read (R260). (DEDUCED, log entry 56) -/
def Cx.walkFrom (cx : Cx) (g dflt : Nat) (key : List Byte) : Nat → Nat → WalkRes × List Nat
  | 0, idx => (.depth idx dflt, [])
  | n + 1, idx =>
    let nd := cx.node idx
    if nbit nd.genMask g = false ∨ (nd.testKind ≠ 1 ∧ nd.testKind ≠ 2) then (.nodeErr idx dflt, [idx])
    else
      let i := if nd.test key then nd.tIndex else nd.fIndex
      let k := if nd.test key then nd.tKind else nd.fKind
      if k = 1 then (.rule (i % 2 ^ 13), [idx])
      else if k = 2 then (.rule dflt, [idx])
      else if k = 3 then (.nodeErr idx dflt, [idx])
      else let r := cx.walkFrom g dflt key n i
           (r.1, idx :: r.2)

/-- Walk tree `t` of slot `g` (R260). -/
def Cx.walk (cx : Cx) (g t : Nat) (key : List Byte) : WalkRes × List Nat :=
  let r := cx.get (Reg.CH_TREE_ROOT g t)
  let root := getF r F.CH_TREE_ROOT_ROOT
  let dflt := getF r F.CH_TREE_ROOT_DEFAULT_RULE
  if getB r F.CH_TREE_ROOT_VALID = false then (.noTree, [])
  else if getB r F.CH_TREE_ROOT_ROOT_IS_RULE then (.rule (root % 2 ^ 13), [])
  else cx.walkFrom g dflt key 24 root

/-! ### A frame at its outcome -/

/-- A frame that is stored and checked, before its outcome. -/
structure Arrived where
  entry  : Entry
  up     : Bool
  /-- Owner tag of its cells (R316). -/
  client : Nat
  cell   : Nat
  /-- Its bytes, FCS included. -/
  bytes  : List Byte
  /-- What the parser reads of it: the reassembled frame without its FCS, or the frame as taken from host buffers or
  the frame port (R219). -/
  plain  : List Byte
  ts     : DWord
  /-- SOURCE of the key (R228). -/
  source : Nat
  /-- Arrival transmit queue (R272). -/
  queue  : Nat
  src    : Option TxSrc
  launch : Option Word
  deriving DecidableEq, Repr

/-- The parser's configuration from its registers (R222). -/
def Cx.parseCfg (cx : Cx) : ParseCfg :=
  { mplsIp := cx.flg Reg.CH_PARSE_CFG F.CH_PARSE_CFG_MPLS_IP
    vxlan := cx.flg Reg.CH_PARSE_CFG F.CH_PARSE_CFG_VXLAN_EN
    gre := cx.flg Reg.CH_PARSE_CFG F.CH_PARSE_CFG_GRE_EN
    gtpu := cx.flg Reg.CH_PARSE_CFG F.CH_PARSE_CFG_GTPU_EN
    inner := cx.flg Reg.CH_PARSE_CFG F.CH_PARSE_CFG_INNER
    tpidX := cx.fld Reg.CH_PARSE_TPID F.CH_PARSE_TPID_TPID_X
    vxlanUdp := cx.fld Reg.CH_PARSE_UDP F.CH_PARSE_UDP_VXLAN_UDP
    gtpuUdp := cx.fld Reg.CH_PARSE_UDP F.CH_PARSE_UDP_GTPU_UDP }

/-- The profile and the tree of a frame type in a slot (R230, R258). -/
def Cx.profile (cx : Cx) (up : Bool) (g t : Nat) : Nat :=
  cx.fld (if up then Reg.CH_KEY_SEL_US g else Reg.CH_KEY_SEL_DS g) ⟨3 * t, 3⟩
def Cx.treeSel (cx : Cx) (up : Bool) (g t : Nat) : Nat :=
  cx.fld (if up then Reg.CH_TREE_SEL_US g else Reg.CH_TREE_SEL_DS g) ⟨3 * t, 3⟩

/-- The key of a frame in a slot (R228 to R230). -/
def Cx.key (cx : Cx) (g : Nat) (a : Arrived) (p : Parsed) : List Byte :=
  buildKey a.plain p a.up a.entry.port a.source
    ((List.range 14).map fun e => cx.get (Reg.CH_KEY_EXT g (cx.profile a.up g p.ftype) e))

/-- The parse counters at the outcome (R237, R250). -/
def Cx.countParse (cx : Cx) (up : Bool) (p : Parsed) : Cx :=
  let base := if up then Cnt.CH_CNT_PARSE_US_TRUNC else Cnt.CH_CNT_PARSE_DS_TRUNC
  let cx := cx.when (p.cause != 0) fun cx => cx.inc (base + 8 * (p.cause - 1))
  let cx := cx.when p.window fun cx => cx.inc Cnt.CH_CNT_PARSE_WINDOW
  let cx := cx.when p.vlanDeep fun cx => cx.inc Cnt.CH_CNT_PARSE_VLAN_DEEP
  cx.when p.mplsDeep fun cx => cx.inc Cnt.CH_CNT_PARSE_MPLS_DEEP

/-- The frame record that deliveries hold. -/
def Arrived.frame (a : Arrived) (p : Parsed) (rule mark : Nat) : Frame :=
  { cell := a.cell, len := a.bytes.length, up := a.up, hasFcs := true, ts := a.ts, port := a.entry.port,
    ctx := a.entry.ctx, rule := rule, mark := mark, ftype := p.ftype }

/-- A host-fed upstream frame that is not forwarded completes (R235, R275). -/
def Cx.clsDropCpl (cx : Cx) (a : Arrived) (ftype : Nat) : Cx :=
  cx.txCompleteOpt a.src CplStatus.clsDrop ftype none

/-- A classified frame makes no delivery (R275). During an orderly disable a downstream frame that would
have been delivered counts as dropped by it (R61). -/
def Cx.clsDrop (cx : Cx) (a : Arrived) (p : Parsed) : Cx :=
  ((cx.releaseChain a.client a.cell).inc Cnt.CH_CNT_CLS_DROP).clsDropCpl a p.ftype

/-! ### Deliveries (R272 to R279) -/

/-- An indirection entry (R286, R506). -/
def Cx.indEntry (cx : Cx) (i : Nat) : Nat := Sparse.le cx.ch.ctxm (0x14E000 + 2 * i) 2

/-- The hash input: the selected key bytes in ascending order (R281). -/
def Cx.hashInput (cx : Cx) (n : Nat) (key : List Byte) : List Byte :=
  let sel := (cx.get (Reg.CH_HASH_FIELDS_LO n)).toNat + (cx.get (Reg.CH_HASH_FIELDS_HI n)).toNat * 2 ^ 32
  ((List.range 64).filter (nbit sel)).map fun b => key.getD b 0

/-- The indirection index (R280 to R283). (DEDUCED, log entry 58) -/
def Cx.indIndex (cx : Cx) (r : Nat) (key : List Byte) : Nat :=
  let w4 := cx.ruleLe r 4 4
  let kind := nbits w4 30 29
  if kind = 1 ∨ kind = 2 then
    let inp := cx.hashInput (nbits (cx.ruleLe r 8 4) 1 0) key
    let h := if inp.isEmpty then 0 else if kind = 1 then crc32c inp else toeplitz cx.ch.tkey.toNat inp
    (nbits w4 24 16 + h % 2 ^ min 9 (nbits w4 28 25)) % 512
  else nbits w4 24 16

/-- Where the forward delivery goes, and whether an invalid indirection entry was met (R271, R272, R284). -/
def Cx.forward (cx : Cx) (a : Arrived) (w0 ctx ind : Nat) : Dest × Bool :=
  let dt := nbits w0 9 8
  let dq := nbits w0 17 10
  let e := cx.indEntry ind
  let ok := nbit e 15 && !(a.up && nbit e 12)
  let c0 := cx.ctxLe ctx 0 4
  let c4 := cx.ctxLe ctx 4 4
  let bad := dt == 2 && !ok
  if a.up then
    let q := if dt = 1 then dq else if dt = 2 then (if ok then nbits e 7 0 else dq) else a.queue
    (.tx (if nbit c0 7 then nbits c4 23 16 else q), bad)
  else if dt = 0 then (.rx dq, false)
  else if dt = 1 then (.fp (nbits w0 21 18), false)
  else if dt = 3 then (.rx (nbits c4 31 24), false)
  else if ok then (if nbit e 12 then .fp (nbits e 11 8) else .rx (nbits e 7 0), false)
  else (.rx dq, bad)

/-- The core copy queue of the channel has room (R278). -/
def Cx.coreRoom (cx : Cx) : Bool :=
  decide ((cx.hl.core.filter fun e => e.chan == cx.id.val && !e.mgmt).length < 32)

/-- The destination can take a delivery (R274). -/
def Cx.destOpen (cx : Cx) : Dest → Bool
  | .rx q => cx.qEn false q
  | .tx q => cx.qEn true q
  | .fp _ => cx.flg Reg.CH_PORT_CFG F.CH_PORT_CFG_FP_EN
  | .core => cx.coreRoom

/-- Count a delivery that is made, or not made (R274, R287). (DEDUCED, log entry 57) -/
def Cx.countDeliv (cx : Cx) (d : Deliv) : Cx :=
  if cx.destOpen d.dest then
    if d.mirror then cx.inc Cnt.CH_CNT_CLS_MIRROR
    else if d.copy then
      cx.inc (if d.dest = .core then Cnt.CH_CNT_CLS_COPY_CORE else Cnt.CH_CNT_CLS_COPY_HOST)
    else cx
  else cx.inc (if d.dest = .core then Cnt.CH_CNT_CLS_COPY_SKIP else Cnt.CH_CNT_CLS_DEST_DISABLED)

/-- A copy for the Headland core moves up to 256 bytes of the frame, unless a cell of it was lost (R278, R335, R339). -/
def Cx.fillCore (cx : Cx) (f : Frame) (ecc : EccFault) : Cx :=
  match cx.checkChain f.cell with
  | (cx, .stopped) => cx
  | (cx, .lost) => cx.releaseFrame f
  | (cx, .whole) =>
    let n := min 256 f.len
    let r := cx.eccCells ecc f.cell 0 n
    let e : CoreEntry := ⟨false, r.1.id.val, f.len, f.mark, f.rule, f.ctx, f.ts, r.2, r.1.frameBytes f.cell n⟩
    (r.1.onHl fun h => { h with core := h.core ++ [e] }).releaseFrame f

/-- Make one delivery (R273, R277). -/
def Cx.deliver (cx : Cx) (a : Arrived) (f : Frame) (c0 c4 : Nat) (ecc : EccFault) (d : Deliv) : Cx :=
  match d.dest with
  | .rx q => cx.rxEnqueue q
      { frame := f, status := CplStatus.ok, info := f.mark, mirror := d.mirror,
        trunc := d.trunc && decide (128 < f.len), copy := d.copy }
  | .fp n => cx.setLane n (cx.lane n ++ [⟨f, d.mirror, d.trunc && decide (128 < f.len), false⟩])
  | .core => cx.fillCore f ecc
  | .tx q => cx.txEnqueue q
      { frame := f, ovrPort := if nbit c0 6 then some (nbits c4 15 0) else none, src := a.src, queue := a.queue,
        launch := a.launch, sent := 0, tsent := none, key := nbits c0 17 16, keySet := nbits c0 15 8,
        bad := false, cellErr := false }

/-- The deliveries that a rule asks for (R272, R273), with the mirror's register valid. -/
def Cx.wanted (cx : Cx) (a : Arrived) (w0 ctx ind : Nat) : List Deliv :=
  let m := cx.get (Reg.CH_CLS_MIRROR (nbits w0 6 5))
  (if nbits w0 1 0 = 1 then [⟨(cx.forward a w0 ctx ind).1, false, false, false⟩] else []) ++
  (if nbit w0 2 then
    [⟨if nbit w0 3 then .core else .rx (cx.fld Reg.CH_CLS_CFG F.CH_CLS_CFG_EXC_QUEUE), false, false, true⟩]
   else []) ++
  (if nbit w0 4 && getB m F.CH_CLS_MIRROR_VALID then
    [⟨if getB m F.CH_CLS_MIRROR_FP then .fp (getF m F.CH_CLS_MIRROR_LANE)
      else .rx (getF m F.CH_CLS_MIRROR_QUEUE), true, getB m F.CH_CLS_MIRROR_TRUNC, false⟩] else [])

/-- Is the delivery one to a transmit queue? -/
def Deliv.isTx (d : Deliv) : Bool :=
  match d.dest with
  | .tx _ => true
  | _ => false

/-- Steps 8 and 9 of R139 for a rule record with its decision context and its indirection index: what they read, and the
deliveries that result (R265, R285). `g` is the slot whose GEN_MASK bit the record must have. -/
def Cx.actStep (cx : Cx) (a : Arrived) (g rule ctx ind : Nat) : ActStep :=
  let w0 := cx.ruleLe rule 0 4
  { rule := rule, good := cx.ruleActOk rule && cx.ruleGen rule g, mark := nbits (cx.ruleLe rule 0xC 4) 15 0, ctx := ctx, c0 := cx.ctxLe ctx 0 4, c4 := cx.ctxLe ctx 4 4, ind := ind
    want := cx.wanted a w0 ctx ind
    indBad := nbits w0 1 0 == 1 && (cx.forward a w0 ctx ind).2
    noMirror := nbit w0 4 && !cx.flg (Reg.CH_CLS_MIRROR (nbits w0 6 5)) F.CH_CLS_MIRROR_VALID }

/-- Make the deliveries of a classified frame, or drop it (R273 to R276). -/
def Cx.deliveries (cx : Cx) (a : Arrived) (p : Parsed) (ecc : EccFault) (x : ActStep) : Cx :=
  let f := a.frame p x.rule x.mark
  let made := x.want.filter fun d => cx.destOpen d.dest
  let cx := cx.when x.indBad fun cx => cx.inc Cnt.CH_CNT_CLS_IND_INVALID
  let cx := x.want.foldl Cx.countDeliv cx
  let cx := cx.when x.noMirror fun cx => cx.inc Cnt.CH_CNT_CLS_DEST_DISABLED
  if made.isEmpty then
    (cx.when (cx.ch.disabling && !a.up && !x.want.isEmpty) fun cx => cx.inc Cnt.CH_CNT_DISABLE_DROP).clsDrop a p
  else
    let cx := cx.handoffChain a.client made.length a.cell
    let cx := made.foldl (fun cx d => cx.deliver a f x.c0 x.c4 ecc d) cx
    if a.up && !made.any Deliv.isTx then cx.clsDropCpl a p.ftype else cx

/-! ### The outcome -/

/-- The counters of the rule record (R266, R275). (DEDUCED, log entry 58) -/
def Cx.countRule (cx : Cx) (r len : Nat) : Cx :=
  let n := cx.ruleLe r 0x10 8 + 1
  let b := cx.ruleLe r 0x18 8 + len
  { cx with ch := { cx.ch with
      ctxm := Sparse.putLe (Sparse.putLe cx.ch.ctxm (ruleAddr r + 0x10) 8 n) (ruleAddr r + 0x18) 8 b } }

/-- The counters of the decision context (R268). (DEDUCED, log entry 58) -/
def Cx.countCtx (cx : Cx) (i len : Nat) : Cx :=
  ((cx.putCtx i 0x20 8 (cx.ctxLe i 0x20 8 + 1)).putCtx i 0x28 8 (cx.ctxLe i 0x28 8 + len)).putCtx i 0x3C 4
    cx.hl.shortTime.toNat

/-- The key slot holds a valid key (R111, R562). -/
def Cx.keyValid (cx : Cx) (set slot : Nat) : Bool := cx.ch.keys.contains (2 * set + (slot - 1))

/-- Apply a decision: rule record, decision context, deliveries (R264 to R275, R657).
(DEDUCED, log entries 55, 58 and 160) -/
def Cx.conclude (cx : Cx) (a : Arrived) (p : Parsed) (ecc : EccFault) (x : ActStep) : Cx :=
  if x.good = false then
    ((cx.inc Cnt.CH_CNT_CLS_RULE_ERR).raise Ev.clsFault (x.rule + 0x30000)).clsDrop a p
  else
    let cx := (cx.countRule x.rule a.bytes.length).countCtx x.ctx a.bytes.length
    let uk := nbits x.c0 17 16
    if nbit x.c0 0 = false ∨ uk = 3 then (cx.inc Cnt.CH_CNT_CLS_CTX_INVALID).clsDrop a p
    else if a.up ∧ uk ≠ 0 ∧ cx.keyValid (nbits x.c0 15 8) uk = false then
      (cx.inc Cnt.CH_CNT_CLS_KEY_MISSING).clsDrop a p
    else cx.deliveries a p ecc x

/-- Count the walk that an outcome uses (R261). (DEDUCED, log entry 55) -/
def Cx.useWalk (cx : Cx) (up : Bool) : WalkRes → Cx
  | .rule _ => cx.inc (if up then Cnt.CH_CNT_CLS_US_WALKS else Cnt.CH_CNT_CLS_DS_WALKS)
  | .noTree => cx.inc Cnt.CH_CNT_CLS_NO_TREE
  | .nodeErr n _ => (cx.inc Cnt.CH_CNT_CLS_NODE_ERR).raise Ev.clsFault (n + 0x10000)
  | .depth n _ => (cx.inc Cnt.CH_CNT_CLS_DEPTH).raise Ev.clsFault (n + 0x20000)

/-- The decision context of a rule (R267). -/
def Cx.decisionCtx (cx : Cx) (a : Arrived) (rule : Nat) : Nat :=
  if nbit (cx.ruleLe rule 0 4) 24 then nbits (cx.ruleLe rule 4 4) 13 0 else a.entry.ctx

/-- Context memory that a decision reads, for the ECC error of R266. -/
def decisionReads (rule ctx ind : Nat) : List (Nat × Nat) :=
  [(ruleAddr rule, 32), (ctxAddr ctx, 64), (0x14E000 + 2 * ind, 2)]

/-- The rule record that a walk ends at. -/
def WalkRes.rule? : WalkRes → Option Nat
  | .rule r => some r
  | .noTree => none
  | .nodeErr _ d => some d
  | .depth _ d => some d

/-- Steps 6 to 9 of R139: the key, the walk in the slot of entry, and what its rule record asks for. -/
def Cx.decision (cx : Cx) (a : Arrived) (p : Parsed) : Decision :=
  let key := cx.key (a.entry.slot.getD 0) a p
  let w := match a.entry.slot with
    | some g => cx.walk g (cx.treeSel a.up g p.ftype) key
    | none => (.noTree, [])
  ⟨key, w.1, w.2, w.1.rule?.map fun r =>
    cx.actStep a (a.entry.slot.getD 0) r (cx.decisionCtx a r) (cx.indIndex r key)⟩

/-- Context memory that a decision has read (R139, steps 8 and 9). -/
def Decision.reads (d : Decision) : List (Nat × Nat) :=
  match d.act with
  | some x => decisionReads x.rule x.ctx x.ind
  | none => []

/-- The decision that an outcome uses, and whether it is taken only now. What was decided while the frame was stored
stands (R139, R285), unless the frame's end has shown a cause that changes its key (R233, R235). -/
def Cx.decided (cx : Cx) (a : Arrived) (p : Parsed) : Decision × Bool :=
  match a.entry.seen with
  | some d => if d.key = cx.key (a.entry.slot.getD 0) a p then (d, false) else (cx.decision a p, true)
  | none => (cx.decision a p, true)

/-- A frame is walked, or takes the stored decision of its datagram (R242 to R248, R258 to R261), which is applied as
memory stands at the outcome. -/
def Cx.classify (cx : Cx) (a : Arrived) (p : Parsed) (ecc : EccFault) : Cx :=
  let d := cx.decided a p
  let w := d.1
  let table := cx.flg Reg.CH_FRAG_CFG F.CH_FRAG_CFG_EN && p.frag
  let tag := fragTag p a.up
  match cx.eccRead ecc (if d.2 then w.nodes else []) (if table then [(fragAddr (4 * fragSet tag), 128)] else []) with
  | (cx, false) => cx
  | (cx, true) =>
    match (if table && p.later then cx.fragFind tag else none) with
    | some i =>
      let w8 := cx.fragLe i 0x18 4
      let ind := nbits (cx.fragLe i 0x1C 4) 8 0
      let cx := cx.fragHit i p.lastFrag
      match cx.eccRead ecc [] (decisionReads (nbits w8 12 0) (nbits w8 27 14) ind) with
      | (cx, false) => cx
      | (cx, true) =>
        cx.conclude a p ecc (cx.actStep a (nbits w8 29 28) (nbits w8 12 0) (nbits w8 27 14) ind)
    | none =>
      let cx := (cx.when (table && p.later) fun cx => cx.inc Cnt.CH_CNT_FRAG_ORPHAN).useWalk a.up w.walk
      match w.act with
      | none => cx.clsDrop a p
      | some x =>
        match cx.eccRead ecc [] (if d.2 then w.reads else []) with
        | (cx, false) => cx
        | (cx, true) =>
          (cx.when (table && !p.later) fun cx =>
            cx.fragInsert tag x.rule x.ctx (a.entry.slot.getD 0) x.ind).conclude a p ecc x

/-- A frame dropped by the malformed action, or delivered by it (R235, R236). -/
def Cx.malformedAct (cx : Cx) (a : Arrived) (p : Parsed) (exception : Bool) : Cx :=
  let q := cx.fld Reg.CH_PARSE_MALFORMED F.CH_PARSE_MALFORMED_QUEUE
  if exception && cx.qEn false q then
    let cx := (cx.handoffChain a.client 1 a.cell).inc Cnt.CH_CNT_PARSE_MAL_DELIVERED
    let cx := cx.rxEnqueue q
      { frame := a.frame p 0 0, status := CplStatus.malformed, info := p.cause, mirror := false,
        trunc := false, copy := false }
    cx.clsDropCpl a p.ftype
  else
    let cx := cx.when (exception && cx.ch.disabling && !a.up) fun cx => cx.inc Cnt.CH_CNT_DISABLE_DROP
    (cx.releaseChain a.client a.cell).clsDropCpl a p.ftype

/-- The malformed action of a direction (R235). -/
def Cx.malAction (cx : Cx) (up : Bool) : Nat :=
  cx.fld Reg.CH_PARSE_MALFORMED
    (if up then F.CH_PARSE_MALFORMED_US_ACTION else F.CH_PARSE_MALFORMED_DS_ACTION)

/-- A frame reaches its outcome (R124, R237): it is parsed, classified and delivered, and leaves its
entry slot (R298). -/
def Cx.outcome (cx : Cx) (a : Arrived) (ecc : EccFault) : Cx :=
  let p := parse cx.parseCfg a.plain
  let act := cx.malAction a.up
  let cx := cx.countParse a.up p
  let cx := if p.cause ≠ 0 ∧ act ≠ 2 then cx.malformedAct a p (act == 1) else cx.classify a p ecc
  cx.flyOut a.entry.slot

/-- A write of 1 to CH_CLS_CFG.TKEY_COMMIT (R283). -/
def Cx.tkeyCommit (cx : Cx) : Cx :=
  let k := (List.range 10).foldl (fun n i => n * 2 ^ 32 + (cx.get (Reg.CH_HASH_TKEY i)).toNat) 0
  { cx with ch := { cx.ch with tkey := BitVec.ofNat 320 k } }

/-- TKEY_COMMIT. -/
def execTkeyCommit (c : ChanId) (s : State) : Out :=
  s.coreWrite c Cx.tkeyCommit

end Sys2Proof.Machine
end

