-- ==== Sys2Proof/Machine/Downstream.lean ====
section
/-!
DEFINITION. Downstream reception (chapter 03): envelopes, the port filter, decryption, reassembly, the
checks of a closed frame, MAC Control frames, and the sync guard's states.
-/

namespace Sys2Proof.Machine

open Sys2Proof

/-! Receive modes (R82). -/
namespace DsMode
def none : Nat := 0
def g9807 : Nat := 1
def g9804_50_25 : Nat := 2
def g9804_50_50 : Nat := 3
def ext100 : Nat := 4
end DsMode

/-- The receive mode; a reserved value acts as NONE (R82). -/
def Cx.dsMode (cx : Cx) : Nat :=
  let m := cx.fld Reg.CH_DS_CFG F.CH_DS_CFG_MODE
  if 4 < m then DsMode.none else m

/-! Guard states (R84). -/
namespace Guard
def nosync : Nat := 0
def confirm : Nat := 1
def accept : Nat := 2
end Guard

def Cx.guard (cx : Cx) : Nat := cx.fld Reg.CH_DS_STATUS F.CH_DS_STATUS_GUARD
def Cx.epoch (cx : Cx) : Nat := cx.fld Reg.CH_DS_STATUS F.CH_DS_STATUS_EPOCH
def Cx.setDs (cx : Cx) (d : Ds) : Cx := { cx with ch := { cx.ch with ds := d } }

/-- The delineation epoch increments, at most once in a line frame (R116). (DEDUCED, log entry 33) -/
def Cx.bumpEpoch (cx : Cx) : Cx :=
  match cx.ch.ds.cur with
  | some lf =>
    if lf.bumped then cx
    else (cx.setf Reg.CH_DS_STATUS F.CH_DS_STATUS_EPOCH (cx.epoch + 1)).setDs
      { cx.ch.ds with cur := some { lf with bumped := true } }
  | none => cx.setf Reg.CH_DS_STATUS F.CH_DS_STATUS_EPOCH (cx.epoch + 1)

/-- Delineation ends for the line frame (R101 to R103). (DEDUCED, log entry 33) -/
def Cx.endDelineation (cx : Cx) : Cx :=
  match cx.ch.ds.cur with
  | some lf => cx.setDs { cx.ch.ds with cur := some { lf with open_ := false } }
  | none => cx

/-- The guard moves; entering or leaving ACCEPT raises the sync event (R401), and leaving it advances the
epoch (R116). -/
def Cx.setGuard (cx : Cx) (g : Nat) : Cx :=
  let old := cx.guard
  let cx := cx.setf Reg.CH_DS_STATUS F.CH_DS_STATUS_GUARD g
  if old = g then cx
  else
    let cx := cx.when (old == Guard.accept) fun cx => cx.bumpEpoch.pmLoss
    cx.when (old == Guard.accept || g == Guard.accept) fun cx => cx.raise Ev.dsSync g

/-! ### Timestamps (R129 to R132) -/

/-- The timestamp of the byte at decoded offset `d` of a line frame marked at `mark`, in eighths of a ns. -/
def Cx.dsTime (cx : Cx) (mark d : Nat) : DWord :=
  let k := cx.fld Reg.CH_TS_DS_FEC F.CH_TS_DS_FEC_K
  let n := cx.fld Reg.CH_TS_DS_FEC F.CH_TS_DS_FEC_N
  let psb := cx.fld Reg.CH_TS_DS_LINE F.CH_TS_DS_LINE_PSB_LEN
  let fec := cx.flg Reg.CH_TS_DS_LINE F.CH_TS_DS_LINE_FEC_ON && k != 0 && decide (k ≤ n)
  let m := if fec then psb + d / k * n + d % k else psb + d
  let bt := cx.fld Reg.CH_TS_DS_BIT F.CH_TS_DS_BIT_BIT_TIME
  -- in units of 125 ps / 1,024 / 125, that is of 1/1,024 ps
  let t : Int := (mark : Int) * 128000 + (m * 8 * bt : Nat) +
    signed 32 (cx.get Reg.CH_TS_DS_FIXED).toNat * 128000
  BitVec.ofNat 64 (wrapInt 64 ((t + 64000) / 128000))

/-- Line-frame periods of 125 µs of channel time (R119). -/
def Cx.period (cx : Cx) : Nat := cx.time16 / 65536 / 125000 % 65536

/-! ### Partial frames (R115 to R121, R268) -/

def Cx.partW (cx : Cx) (c : Nat) : Nat := cx.ctxLe c 8 4
def Cx.partial_ (cx : Cx) (c : Nat) : Bool := nbit (cx.partW c) 28
/-- DEDUCED, log entry 36. -/
def Cx.discarding (cx : Cx) (c : Nat) : Bool := nbit (cx.partW c) 29
def Cx.partLen (cx : Cx) (c : Nat) : Nat := nbits (cx.ctxLe c 0xC 4) 13 0
def Cx.partEpoch (cx : Cx) (c : Nat) : Nat := nbits (cx.ctxLe c 0xC 4) 31 16
def Cx.partStamp (cx : Cx) (c : Nat) : Nat := nbits (cx.ctxLe c 0x10 4) 15 0

/-- The entry of the partial frame of a context. -/
def Cx.partEntry (cx : Cx) (c : Nat) : Entry :=
  (Sparse.get (fun _ => Option.none) cx.ch.ds.entry c).getD ⟨cx.curSlot, c, cx.ctxLe c 0 8, 0, none⟩

def Cx.setEntry (cx : Cx) (c : Nat) (e : Option Entry) : Cx :=
  cx.setDs { cx.ch.ds with entry := Sparse.set (fun _ => none) cx.ch.ds.entry c e }

/-- Write the reassembly words of a context. -/
def Cx.putPart (cx : Cx) (c : Nat) (cur : Cursor) (part disc : Bool) (key epoch : Nat) : Cx :=
  let w8 := cur.first % 2 ^ 14 + cur.last % 2 ^ 14 * 2 ^ 14 + b2n part * 2 ^ 28 + b2n disc * 2 ^ 29 + key % 4 * 2 ^ 30
  ((cx.putCtx c 8 4 w8).putCtx c 0xC 4 (cur.len % 2 ^ 14 + epoch % 2 ^ 16 * 2 ^ 16)).putCtx c 0x10 4
    (cx.period + cellsFor cur.len % 64 * 2 ^ 16)

/-- PARTIAL and DISCARDING of a context whose frame has gone. -/
def Cx.noPart (cx : Cx) (c : Nat) (disc : Bool) : Cx :=
  (cx.putPart c ⟨0, 0, 0⟩ false disc 0 (cx.partEpoch c)).setEntry c none

/-- The maximum frame length (R128). -/
def Cx.maxLen (cx : Cx) : Nat := max 64 (min 16000 (cx.fld Reg.CH_RX_CFG F.CH_RX_CFG_MAX_LEN))

/-! Error flags (R126). -/
namespace RxErr
def fcs : Nat := 1
def runt : Nat := 2
def oversize : Nat := 4
def gap : Nat := 8
def timeout : Nat := 16
def keyMismatch : Nat := 32
end RxErr

/-- The counter of the first applicable error (R125). -/
def rxErrCounter (fl : Nat) : Nat :=
  if nbit fl 5 then Cnt.CH_CNT_DS_REASM_KEY_MISMATCH
  else if nbit fl 3 then Cnt.CH_CNT_DS_REASM_GAP
  else if nbit fl 4 then Cnt.CH_CNT_DS_REASM_TIMEOUT
  else if nbit fl 2 then Cnt.CH_CNT_DS_OVERSIZE
  else if nbit fl 1 then Cnt.CH_CNT_DS_RUNT
  else Cnt.CH_CNT_DS_FCS_ERR

/-- A bad frame is dropped, or delivered unclassified (R125 to R127). One whose queue an orderly disable has taken down is
dropped by the disable (R61). (DEDUCED, log entry 152) -/
def Cx.badFrame (cx : Cx) (e : Entry) (cell len fl : Nat) (ts : DWord) : Cx :=
  let q := cx.fld Reg.CH_RX_CFG F.CH_RX_CFG_ERR_QUEUE
  let cx := cx.inc (rxErrCounter fl)
  if cx.flg Reg.CH_RX_CFG F.CH_RX_CFG_KEEP_BAD && cx.qEn false q then
    let cx := ((cx.handoffChain Owner.dsRx 1 cell).inc Cnt.CH_CNT_DS_ERR_DELIVERED).idleRestart
    cx.rxEnqueue q
      { frame := { cell := cell, len := len, up := false, hasFcs := !nbit fl 2, ts := ts, port := e.port,
                   ctx := e.ctx, rule := 0, mark := 0, ftype := 0 }
        status := CplStatus.badFrame, info := fl, mirror := false, trunc := false, copy := false }
  else
    let kept := cx.flg Reg.CH_RX_CFG F.CH_RX_CFG_KEEP_BAD && cx.ch.disabling
    (cx.when kept fun cx => cx.inc Cnt.CH_CNT_DISABLE_DROP).releaseChain Owner.dsRx cell

/-! ### PAUSE and PFC (R211, R212) -/

/-- Upstream bit time times 512, in ps (R212). -/
def Cx.quantaPs (cx : Cx) (quanta : Nat) : Nat :=
  quanta * 512 * cx.fld Reg.CH_US_BIT F.CH_US_BIT_BIT_TIME / 1024

/-- The pause timers: 0 is PAUSE, 1 + n the PFC timer of class n. -/
def pauseField (i : Nat) : Field := if i = 0 then F.CH_US_PAUSE_STATUS_PAUSED else ⟨7 + i, 1⟩

/-- Set a pause timer, or release it when the quanta are zero (R212). (DESIGN CHOICE, log entry 155) -/
def Cx.setPause (cx : Cx) (i quanta : Nat) : Cx :=
  let until_ := if quanta = 0 then none
    else some (cx.hl.stu.tick + BitVec.ofNat 64 ((cx.quantaPs quanta + 999) / 1000))
  ({ cx with ch := { cx.ch with us := { cx.ch.us with
      pause := Sparse.set (fun _ => none) cx.ch.us.pause i until_ } } }).setf
    Reg.CH_US_PAUSE_STATUS (pauseField i) (b2n until_.isSome)

/-- The address of CH_US_PAUSE_MAC. -/
def Cx.pauseMac (cx : Cx) : List Byte :=
  beBytes 2 (cx.fld Reg.CH_US_PAUSE_MAC_HI F.CH_US_PAUSE_MAC_HI_MAC_HI) ++
    beBytes 4 (cx.get Reg.CH_US_PAUSE_MAC_LO).toNat

/-- The frame is a MAC Control frame for the channel (R211). -/
def Cx.macControl (cx : Cx) (f : List Byte) : Bool :=
  be16 f 12 == 0x8808 &&
    (f.take 6 == beBytes 6 0x0180C2000001 || f.take 6 == cx.pauseMac)

/-- Act on an honoured frame; answers whether it is consumed (R211, R212). -/
def Cx.macControlRx (cx : Cx) (f : List Byte) : Cx × Bool :=
  let consume := !cx.flg Reg.CH_US_PAUSE_CFG F.CH_US_PAUSE_CFG_DELIVER
  if cx.macControl f = false then (cx, false)
  else if be16 f 14 = 1 ∧ cx.flg Reg.CH_US_PAUSE_CFG F.CH_US_PAUSE_CFG_EN_PAUSE then
    ((cx.inc Cnt.CH_CNT_US_PAUSE_RX).setPause 0 (be16 f 16), consume)
  else if be16 f 14 = 0x0101 ∧ cx.flg Reg.CH_US_PAUSE_CFG F.CH_US_PAUSE_CFG_EN_PFC then
    ((List.range 8).foldl (fun cx n =>
        cx.when (nbit (be16 f 16) n) fun cx => cx.setPause (1 + n) (be16 f (18 + 2 * n)))
      (cx.inc Cnt.CH_CNT_US_PFC_RX), consume)
  else (cx, false)

/-! ### Closing a frame (R123 to R127, R109, R339) -/

/-- The frame of a management context goes to the mailbox (R109, R559). -/
def Cx.mgmtFrame (cx : Cx) (e : Entry) (cell : Nat) (bytes : List Byte) (ts : DWord) : Cx :=
  let r : CoreEntry := ⟨true, cx.id.val, bytes.length, 0, 0, e.ctx, ts, false, bytes⟩
  (cx.onHl fun h => { h with core := h.core ++ [r] }).releaseChain Owner.dsRx cell

/-- A downstream frame at its outcome, of which the parser reads `plain`. -/
def dsArrived (e : Entry) (cell : Nat) (bytes plain : List Byte) (ts : DWord) : Arrived :=
  { entry := e, up := false, client := Owner.dsRx, cell := cell, bytes := bytes, plain := plain, ts := ts,
    source := 0, queue := 0, src := none, launch := none }

/-- The partial frame of a context is closed with the error flags `fl` (R123 to R127). One longer than MAX_LEN as it
now stands is oversize, and is delivered with its first MAX_LEN bytes. A frame without error is committed, whatever becomes
of it, and the idle timer restarts (R124, R237, R469). One of a management context that is not VALID is dropped
(R270, R652). (DEDUCED, log entry 133) -/
def Cx.dsClose (cx : Cx) (c fl : Nat) (ecc : EccFault) : Cx :=
  let e := cx.partEntry c
  let cell := nbits (cx.partW c) 13 0
  let len := cx.partLen c
  let ts := BitVec.ofNat 64 (cx.ctxLe c 0x18 8)
  let cx := cx.noPart c false
  match cx.checkChain cell with
  | (cx, .stopped) => cx.flyOut e.slot
  | (cx, .lost) => (cx.releaseChain Owner.dsRx cell).flyOut e.slot
  | (cx, .whole) =>
    let fl := fl ||| (if cx.maxLen < len then RxErr.oversize else 0)
    let len := min len cx.maxLen
    let bytes := cx.frameBytes cell len
    let fl := fl ||| (if len < 64 then RxErr.runt else 0)
    let fl := fl ||| (if nbit fl 1 || nbit fl 2 || fcsOk bytes then 0 else RxErr.fcs)
    let mgmt := nbit e.aw 1
    let cx := cx.when mgmt fun cx => cx.inc Cnt.CH_CNT_DS_MGMT_FRAMES
    if fl ≠ 0 then (cx.badFrame e cell len fl ts).flyOut e.slot
    else
      let cx := ((cx.inc Cnt.CH_CNT_DS_FRAMES_OK).add Cnt.CH_CNT_DS_BYTES_OK len).idleRestart
      if mgmt && !nbit e.aw 0 then
        (((cx.inc Cnt.CH_CNT_CLS_CTX_INVALID).inc Cnt.CH_CNT_CLS_DROP).releaseChain Owner.dsRx cell).flyOut e.slot
      else if mgmt then (cx.mgmtFrame e cell bytes ts).flyOut e.slot
      else
        match cx.macControlRx bytes with
        | (cx, true) => (cx.releaseChain Owner.dsRx cell).flyOut e.slot
        | (cx, false) =>
          cx.outcome (dsArrived e cell bytes (bytes.take (len - 4)) ts) ecc

/-! ### Reassembly (R105, R115 to R123) -/

/-- Where storage of a context's frame stands. -/
def Cx.partCursor (cx : Cx) (c : Nat) : Cursor :=
  ⟨nbits (cx.partW c) 13 0, nbits (cx.partW c) 27 14, cx.partLen c⟩

/-- The Granary refused a cell (R121). -/
def Cx.noCell (cx : Cx) (c : Nat) (cur : Cursor) (slot : Option Nat) (last : Bool) : Cx :=
  let cx := if cur.len = 0 then cx else cx.releaseChain Owner.dsRx cur.first
  let cx := if cur.len = 0 then cx else cx.flyOut slot
  (cx.inc Cnt.CH_CNT_DS_NO_CELL).noPart c (!last)

/-- The byte after the last one that the parser can have read: two bytes decide whether a tunnel header follows the last
layer (R222, R229). (DEDUCED, log entry 118) -/
def Parsed.reach (p : Parsed) : Nat :=
  2 + ([p.l2, p.etype, p.mplsL, p.outer3, p.outer4, p.tunnel, p.inner2, p.inner3, p.inner4].foldl
    (fun n l => match l with
      | some x => max n x.2
      | none => n) 0)

/-- The frame of which `got` is known not to be FCS, taken as long as a frame can be. -/
def stretch (got : List Byte) : List Byte := got ++ List.replicate 16000 0

/-- The headers of a frame, of which the bytes `got` are stored, have ended: the parser needs no byte that is still to
come, whatever the rest holds (R139). (DEDUCED, log entry 118) -/
def Cx.headersIn (cx : Cx) (got : List Byte) : Bool :=
  decide (256 ≤ got.length) || decide ((parse cx.parseCfg (stretch got)).reach ≤ got.length)

/-- The decision of a frame that goes on, once its headers have ended: its parsing and walk run while it is stored, with
the reads that they make (R139, R254, R266, R285). The last four bytes stored may be the frame's FCS, which the parser
does not read (R219). A frame of a management context is not classified (R109). (DEDUCED, log entry 118) -/
def Cx.sample (cx : Cx) (c : Nat) (ecc : EccFault) : Cx :=
  let e := cx.partEntry c
  let got := (cx.frameBytes (nbits (cx.partW c) 13 0) (cx.partLen c)).take (cx.partLen c - 4)
  let p := parse cx.parseCfg (stretch got)
  if nbit e.aw 1 || e.seen.isSome || !cx.headersIn got || (p.cause != 0 && cx.malAction false != 2) then cx
  else
    let d := cx.decision (dsArrived e 0 (stretch got) (stretch got) 0) p
    ((cx.setEntry c (some { e with seen := some d })).eccRead ecc d.nodes d.reads).1

/-- The parser keeps its state in the context of a frame that goes on (R268). -/
def Cx.parserState (cx : Cx) (c : Nat) : Cx :=
  cx.setDs { cx.ch.ds with
    resume := (List.range 12).foldl (fun m i => Sparse.set (fun _ => false) m (64 * c + 0x30 + i) true) cx.ch.ds.resume }

/-- A fragment's bytes are appended to the partial frame of its context, or start one (R115, R123). A frame enters when its
first byte is written (R296). (DEDUCED, log entry 137) -/
def Cx.append (cx : Cx) (i : CipherItem) (ecc : EccFault) : Cx :=
  let c := i.ctx
  let fresh := !cx.partial_ c
  let cur := if fresh then ⟨0, 0, 0⟩ else cx.partCursor c
  let take := i.payload.take (cx.maxLen - cur.len)
  let key := if fresh then i.key else nbits (cx.partW c) 31 30
  let slot := if fresh then (cx.entrySlot i.aw).1 else (cx.partEntry c).slot
  let enters (cx : Cx) (cur : Cursor) : Cx :=
    if fresh && cur.len != 0 then (cx.entrySlot i.aw).2.flyIn slot else cx
  match cx.storeBytes Owner.dsRx false cur take with
  | (false, cur', cx) => (enters cx cur').noCell c cur' slot i.last
  | (true, cur', cx) =>
    let cx := if fresh then
        (((enters cx cur').setEntry c (some ⟨slot, c, i.aw, i.port, none⟩)).putCtx c 0x18 8 i.ts.toNat)
      else cx
    let cx := cx.putPart c cur' true false key i.epoch
    if take.length < i.payload.length then
      let cx := cx.dsClose c RxErr.oversize ecc
      if i.last then cx else cx.noPart c true
    else if i.last then cx.dsClose c 0 ecc
    else (cx.parserState c).sample c ecc

/-- A decrypted envelope reaches reassembly. (DEDUCED, log entry 36) -/
def Cx.reassemble (cx : Cx) (i : CipherItem) (ecc : EccFault) : Cx :=
  let c := i.ctx
  if cx.finishing = false then cx
  else if cx.discarding c then (if i.last then cx.noPart c false else cx)
  else
    let fl := if cx.partial_ c then
        (if cx.partEpoch c = i.epoch then 0 else RxErr.gap) +
          (if nbits (cx.partW c) 31 30 = i.key then 0 else RxErr.keyMismatch)
      else 0
    let cx := if fl = 0 then cx else cx.dsClose c fl ecc
    if i.payload.isEmpty then
      if fl = 0 ∧ cx.partial_ c ∧ i.last then cx.dsClose c 0 ecc else cx
    else cx.append i ecc

/-- The classifier and the sub-blocks behind it take frames: they do not while an abort of Stop entry restarts them
(R474). -/
def Cx.clsOpen (cx : Cx) : Bool := !cx.subStopped 4

/-- Envelopes at the head of the queue that wait for no decryption go on (R113). (DEDUCED, log entry 38) -/
def Cx.drainPlain (cx : Cx) (ecc : EccFault) : Nat → Cx
  | 0 => cx
  | n + 1 => match cx.ch.ds.cipherQ with
    | [] => cx
    | i :: l =>
      if i.enc || !cx.clsOpen then cx
      else ((cx.setDs { cx.ch.ds with cipherQ := l }).reassemble i ecc).drainPlain ecc n

/-- DEDUCED, log entry 38. -/
def Cx.drainCipher (cx : Cx) (ecc : EccFault) : Cx :=
  cx.drainPlain ecc (cx.ch.ds.cipherQ.length + 1)

/-! ### Delineation and the port filter (R99 to R112) -/

/-- The flow context bound to a port (R106). (DESIGN CHOICE, log entry 146) -/
def Cx.portCtx (cx : Cx) (port : Nat) : Option Nat :=
  match Sparse.get (fun _ => Option.none) cx.ch.ports port with
  | some c => some c
  | none =>
    ((List.range 8).find? fun n =>
      cx.flg (Reg.CH_DS_BCAST n) F.CH_DS_BCAST_VALID && port != 0xFFFF &&
        cx.fld (Reg.CH_DS_BCAST n) F.CH_DS_BCAST_PORT == port).map
      fun n => cx.fld (Reg.CH_DS_BCAST n) F.CH_DS_BCAST_CTX

/-- Bytes of padding after a payload of `n` bytes (R101). -/
def padLen (mode n : Nat) : Nat :=
  if mode = DsMode.g9807 then (4 - n % 4) % 4
  else if mode = DsMode.ext100 then (8 - n % 8) % 8
  else Config.pad9804 n

/-- The header item of an envelope at the cipher port (R602). `dir`: upstream. In EXT_100 the engine chooses the counter
of an upstream envelope. -/
def cpHeader (keySet slot : Nat) (dir : Bool) (mode len : Nat) (seedA : DWord) (seedB : Word) : BitVec 512 :=
  let gen := dir && mode == DsMode.ext100
  BitVec.ofNat 512 (keySet % 256 + slot % 4 * 2 ^ 8 + b2n dir * 2 ^ 10 + b2n gen * 2 ^ 11 + mode % 8 * 2 ^ 12 +
    len % 2 ^ 14 * 2 ^ 16 + seedA.toNat * 2 ^ 64 + seedB.toNat * 2 ^ 128)

/-- An encrypted envelope's header item passes to the cipher engine; not while TEST_EN is 1 (R624). -/
def Cx.cpSend (cx : Cx) (h : BitVec 512) : Cx :=
  if cx.hl.pins.testEn then cx else { cx with ch := { cx.ch with cpReq := some (1, h) } }

/-- Number of a slot in the engine's and the store's tables; `slot` 1 or 2. -/
def keyIndex (set slot : Nat) : Nat := 2 * set + (slot - 1)

/-- The key item of a slot: a load of a key, or a clear (R604). -/
def cpKey (k : Nat) (key : Option KeySlot) : BitVec 512 :=
  let v := match key with
    | some s => b2n s.k256 * 2 ^ 11 + s.key.toNat * 2 ^ 256
    | none => 2 ^ 10
  BitVec.ofNat 512 (k / 2 % 256 + (k % 2 + 1) * 2 ^ 8 + v)

/-- A key item for slot number `k` passes to the cipher engine: from then the slot is valid after a load, and not after
a clear (R562, R604). -/
def Cx.keySend (cx : Cx) (k : Nat) (key : Option KeySlot) : Cx :=
  let others := cx.ch.keys.filter fun x => x != k
  { cx with ch := { cx.ch with
      keys := if key.isSome then k :: others else others, cpReq := some (3, cpKey k key) } }

/-- The key that the key store holds for a slot of the channel (R561). -/
def Cx.storedKey (cx : Cx) (k : Nat) : Option KeySlot :=
  Sparse.get (fun _ => none) cx.hl.keyStore (512 * cx.id.val + k)

/-- Keys are delivered again: those of the slots given that the store holds (R166, R563). -/
def Cx.deliverKeys (cx : Cx) (ks : List Nat) : Cx :=
  ks.foldl (fun cx k => if (cx.storedKey k).isSome then cx.keySend k (cx.storedKey k) else cx) cx

/-- A delineated envelope passes the port filter and the key checks (R105 to R112). (PRESUMED, log entry 59) -/
def Cx.filterEnv (cx : Cx) (lf : LineFrame) (d : Nat) (h : Nat) (counter : DWord) (payload : List Byte)
    (ecc : EccFault) : Cx :=
  let port := nbits h 47 32
  let key := nbits h 49 48
  match cx.portCtx port with
  | none => cx.inc Cnt.CH_CNT_DS_ENV_OTHER
  | some c =>
    if key = 3 then cx.inc Cnt.CH_CNT_DS_KEY_INVALID
    else
      match cx.eccRead ecc [] [(ctxAddr c, 64)] with
      | (cx, false) => cx
      | (cx, true) =>
        let aw := cx.ctxLe c 0 8
        if key ≠ 0 ∧ cx.keyValid (nbits aw 15 8) key = false then cx.inc Cnt.CH_CNT_DS_KEY_MISSING
        else if key = 0 ∧ nbit aw 2 then cx.inc Cnt.CH_CNT_DS_PLAIN_ON_SECURE
        else
          let ext := lf.mode == DsMode.ext100
          let i : CipherItem :=
            { enc := key != 0 && !payload.isEmpty, drop := false, port := port, ctx := c, aw := aw, key := key,
              last := nbit h 13, payload := payload,
              seedA := if ext then counter else BitVec.ofNat 64 lf.sfc
              seedB := if ext then 0 else BitVec.ofNat 32 (d / 4)
              epoch := cx.epoch, ts := cx.dsTime lf.mark d }
          let cx := cx.when i.enc fun cx =>
            cx.cpSend (cpHeader (nbits aw 15 8) key false lf.mode payload.length i.seedA i.seedB)
          (cx.setDs { cx.ch.ds with cipherQ := cx.ch.ds.cipherQ ++ [i] }).drainCipher ecc

/-- A byte of `n` from offset `a` of the decoded content lies in a flagged word (R80, R595: words of 64 bytes). -/
def LineFrame.flaggedAt (lf : LineFrame) (a n : Nat) : Bool :=
  lf.flagged.any fun w => decide (a < 64 * w + 64) && decide (64 * w < a + n)

/-- The envelope at the delineation position of the line frame (R99 to R104). `hdr` is the header as it
reads after the HEC decode; one that lies in a flagged word counts as uncorrectable (R102). (DEDUCED, log entry 33) -/
def Cx.envelope (cx : Cx) (lf : LineFrame) (hdr : DWord) (hec : Hec) (counter : DWord) (payload : List Byte)
    (ecc : EccFault) : Cx :=
  let h := hdr.toNat
  let pli := nbits h 63 50
  let cnt := if lf.mode = DsMode.ext100 ∧ nbits h 49 48 ≠ 0 then 8 else 0
  let d := lf.pos + 8 + cnt
  let next := d + pli + padLen lf.mode pli
  let hec := if lf.flaggedAt lf.pos 8 then Hec.uncorr else hec
  if lf.len < lf.pos + 8 then cx.endDelineation
  else if hec = .uncorr then
    ((cx.inc Cnt.CH_CNT_DS_ENV_HEC_UNCORR).bumpEpoch).lfErrored.endDelineation
  else
    let cx := cx.when (hec == .corrected) fun cx => cx.inc Cnt.CH_CNT_DS_ENV_HEC_CORR
    if lf.len < next then ((cx.inc Cnt.CH_CNT_DS_ENV_OVERRUN).bumpEpoch).lfErrored.endDelineation
    else
      let cx := match cx.ch.ds.cur with
        | some l => cx.setDs { cx.ch.ds with cur := some { l with pos := next } }
        | none => cx
      if nbits h 47 32 = 0xFFFF then cx.inc Cnt.CH_CNT_DS_ENV_IDLE
      else
        let cx := cx.inc Cnt.CH_CNT_DS_ENV_RX
        let bytes := (payload ++ List.replicate pli 0).take pli
        let cx := cx.when cx.filtering fun cx => cx.wakeFilter (nbits h 47 32) (nbits h 49 48) bytes
        if cx.watching then cx else cx.filterEnv lf d h counter bytes ecc

/-- ENVELOPE_RX. An envelope arrives only inside an accepted line frame of a channel that takes payload; a receiver that
Stop entry has stopped processes none (R473, R474). -/
def Cx.envelopeRx (cx : Cx) (hdr : DWord) (hec : Hec) (counter : DWord) (payload : List Byte)
    (ecc : EccFault) : Cx :=
  match cx.ch.ds.cur with
  | some lf => if lf.open_ && ((cx.running && !cx.subStopped 6) || cx.watching) then cx.envelope lf hdr hec counter payload ecc else cx
  | none => cx

def execEnvelopeRx (c : ChanId) (hdr : DWord) (hec : Hec) (counter : DWord) (payload : List Byte)
    (ecc : EccFault) (s : State) : Out :=
  s.onChanEcc c ecc fun cx => cx.envelopeRx hdr hec counter payload ecc

/-- What the block makes of the item that the engine returns for envelope `i`: none when it is discarded (R114, R605),
or when an orderly disable has discarded its fragment (R61). -/
def CipherItem.returned (i : CipherItem) (seedA : DWord) (seedB : Word) (plain : List Byte) (err : Bool) :
    Option CipherItem :=
  if err ∨ seedA ≠ i.seedA ∨ seedB ≠ i.seedB ∨ i.drop then none
  else some { i with
    enc := false, payload := (plain ++ List.replicate i.payload.length 0).take i.payload.length }

/-- CIPHER_RETURN: the engine returns the first envelope that waits for it (R113, R114, R605).
(DEDUCED, log entry 38) -/
def Cx.cipherReturn (cx : Cx) (seedA : DWord) (seedB : Word) (plain : List Byte) (err : Bool) (late : Nat)
    (ecc : EccFault) : Cx :=
  let ahead := cx.ch.ds.cipherQ.takeWhile fun i => !i.enc
  match cx.ch.ds.cipherQ.drop ahead.length with
  | [] => cx
  | i :: l =>
    let cx := cx.when (late != 0) fun cx =>
      (cx.add Cnt.CH_CNT_CP_LATE late).setf Reg.CH_PORT_STATUS F.CH_PORT_STATUS_CP_LATE 1
    let cx := if err then cx.inc Cnt.CH_CNT_CP_ENGINE_ERR
      else if seedA ≠ i.seedA ∨ seedB ≠ i.seedB then cx.inc Cnt.CH_CNT_DS_CIPHER_MISMATCH
      else cx
    (cx.setDs { cx.ch.ds with
      cipherQ := ahead ++ (i.returned seedA seedB plain err).toList ++ l }).drainCipher ecc

def execCipherReturn (c : ChanId) (seedA : DWord) (seedB : Word) (plain : List Byte) (err : Bool) (late : Nat)
    (ecc : EccFault) (s : State) : Out :=
  s.onChanEcc c ecc fun cx => if cx.finishing then cx.cipherReturn seedA seedB plain err late ecc else cx

/-- The partial frame of a context is older than AGE periods (R119, R122). -/
def Cx.reasmAged (cx : Cx) (c : Nat) : Bool :=
  cx.partial_ c &&
    decide (max 1 (cx.fld Reg.CH_RX_REASM F.CH_RX_REASM_AGE) < (cx.period + 65536 - cx.partStamp c) % 65536)

/-- At wake the sweep closes every partial frame whose age passed during Stop (R119). The clock stood since
`pwr.since`: a frame is older than that, so the 16 bits of its stamp need not tell how long Stop lasted. -/
def Cx.reasmWake (cx : Cx) : Cx :=
  let slept := (cx.hl.stu.tick - cx.ch.pwr.since).toNat
  let limit := 125000 * (max 1 (cx.fld Reg.CH_RX_REASM F.CH_RX_REASM_AGE) + 1)
  (cx.ch.ds.entry.map Prod.fst).foldl (fun cx c =>
    if cx.partial_ c && (cx.reasmAged c || decide (limit ≤ slept)) then cx.dsClose c RxErr.timeout .none else cx) cx

/-- REASM_TIMEOUT: the sweep reaches a context (R119). -/
def Cx.reasmTimeout (cx : Cx) (c : Nat) (ecc : EccFault) : Cx :=
  if cx.running && cx.clsOpen && cx.reasmAged c then cx.dsClose c RxErr.timeout ecc else cx

def execReasmTimeout (c : ChanId) (ctx : Fin 16384) (ecc : EccFault) (s : State) : Out :=
  s.onChanEcc c ecc fun cx => cx.reasmTimeout ctx ecc

/-- PAUSE_TIMER_EXPIRY: a running timer runs out (R212). -/
def execPauseTimerExpiry (c : ChanId) (i : Fin 9) (s : State) : Out :=
  s.onChan c fun cx =>
    if (Sparse.get (fun _ => Option.none) cx.ch.us.pause i.val).isSome then cx.setPause i 0 else cx

/-- A fragment that is discarded: the engine still returns the item of one that waits for it (R61, R603). -/
def CipherItem.discard (i : CipherItem) : List CipherItem := if i.enc then [{ i with drop := true }] else []

/-- The fragments before reassembly, of which those of frames that were never received whole are discarded: of a context
in `held`, those up to its next LF = 1, and of every context those behind which no LF = 1 of it follows (R61, R115). -/
def keepWhole : List Nat → List CipherItem → List CipherItem
  | _, [] => []
  | held, i :: l =>
    if i.drop then i :: keepWhole held l
    else if held.contains i.ctx then i.discard ++ keepWhole (if i.last then held.filter (· != i.ctx) else held) l
    else if i.last || l.any fun j => j.ctx == i.ctx && j.last then i :: keepWhole held l
    else i.discard ++ keepWhole held l

/-- All partial frames are discarded uncounted, with what is still on its way to them (R61, step 1).
(DEDUCED, log entries 23 and 37) -/
def Cx.dropPartials (cx : Cx) : Cx :=
  let held := (cx.ch.ds.entry.map Prod.fst).filter cx.partial_
  let cx := cx.setDs { cx.ch.ds with cipherQ := keepWhole held cx.ch.ds.cipherQ }
  cx.ch.ds.entry.foldl (fun cx e =>
    let c := e.1
    let cell := nbits (cx.partW c) 13 0
    let slot := (cx.partEntry c).slot
    ((cx.releaseChain Owner.dsRx cell).flyOut slot).noPart c false) cx

end Sys2Proof.Machine
end

