-- ==== Sys2Proof/Machine/Time.lean ====
section
/-!
DEFINITION. Time (chapter 12): the counts of the STU, the servo, offset measurements, the PPS and ToD
signals, and the transmit timestamp queue.
-/

namespace Sys2Proof.Machine

open Sys2Proof

/-! ### The counts (R410 to R412, R424, R425) -/

/-- Units of the calendar accumulator in a second: 2^-48 ns. -/
def calSecond : Nat := 1000000000 * 2 ^ 48

/-- Calendar time in units of 2^-48 ns. -/
def Stu.cal (t : Stu) : Nat := (t.sec * 1000000000 + t.ns) * 2 ^ 48 + t.calFrac

/-- Load calendar time; the seconds count has 48 bits. -/
def Stu.setCal (t : Stu) (c : Int) : Stu :=
  let c := wrapInt' (calSecond * 2 ^ 48) c
  { t with sec := c / calSecond, ns := c % calSecond / 2 ^ 48, calFrac := c % 2 ^ 48 }
where
  /-- The residue of an integer. -/
  wrapInt' (m : Nat) (i : Int) : Nat := (i % (m : Int)).toNat

/-- The increment of one STU cycle in 2^-48 ns, for y in 2^-10 ppb (R410). (DEDUCED, log entry 71) -/
def cycleInc (y : Int) : Int := 2 ^ 48 + y * 2 ^ 48 / 1024000000000

/-- One STU cycle. -/
def Stu.advance (t : Stu) (y : Int) : Stu :=
  let a := t.tick.toNat * 2 ^ 48 + t.frac + (cycleInc y).toNat
  { t.setCal (t.cal + cycleInc y) with tick := BitVec.ofNat 64 (a / 2 ^ 48), frac := a % 2 ^ 48 }

def Headland.stuY (h : Headland) : Int := signed 32 (h.get Reg.HL_STU_FREQ).toNat

/-- Add to the phase offset O, in 2^-48 ns (R426). -/
def Chan.addPhase (c : Chan) (d : Int) : Chan :=
  let a := signed 64 c.phase * 2 ^ 32 + c.tu.frac + d
  let o := wrapInt 64 (a / 2 ^ 32)
  { (c.put Reg.CH_TU_PHASE_LO (BitVec.ofNat 32 o)).put Reg.CH_TU_PHASE_HI (BitVec.ofNat 32 (o / 2 ^ 32)) with
    tu := { c.tu with frac := wrapInt 32 a } }

/-- What a span of STU time, in 2^-48 ns, adds to O: y_c × 10^-9 of it (R426). -/
def Chan.drift (c : Chan) (span : Int) : Int := span * signed 32 (c.get Reg.CH_TU_FREQ).toNat / 1024000000000

/-- What `n` ticks of the STU add to O (R428). -/
def Chan.phaseDrift (c : Chan) (n : Nat) : Int := c.drift (n * 2 ^ 48)

/-- One cycle of a channel time unit, in which STU time advances by `span` (R410, R426). In Stop it keeps its values
(R428). -/
def Chan.timeTick (c : Chan) (span : Int) : Chan :=
  if c.coreStopped then c
  else if c.get Reg.CH_TU_FREQ = 0 then c else c.addPhase (c.drift span)

/-- Set the calendar (R424). -/
def Headland.setStu (h : Headland) (t : Stu) : Headland := { h with stu := t }

def Headland.stuAdj (h : Headland) : Headland :=
  let d := signed 64 ((h.get Reg.HL_STU_ADJ_NS_LO).toNat + 2 ^ 32 * (h.get Reg.HL_STU_ADJ_NS_HI).toNat)
  (h.setStu (h.stu.setCal (h.stu.cal + d * 2 ^ 48))).inc Cnt.HL_CNT_STU_STEPS

def Headland.stuSet (h : Headland) : Headland :=
  let sec := (h.get Reg.HL_STU_SET_SEC_LO).toNat + 2 ^ 32 * h.fld Reg.HL_STU_SET_SEC_HI F.HL_STU_SET_SEC_HI_SEC_HI
  let ns := h.fld Reg.HL_STU_SET_NS F.HL_STU_SET_NS_NS % 1000000000
  (h.setStu { h.stu with sec := sec, ns := ns, calFrac := 0 }).inc Cnt.HL_CNT_STU_STEPS

def Headland.stuSnapshot (h : Headland) : Headland :=
  let t := h.stu
  let h := (h.put Reg.HL_STU_SNAP_TICK_LO (BitVec.ofNat 32 t.tick.toNat)).put
    Reg.HL_STU_SNAP_TICK_HI (BitVec.ofNat 32 (t.tick.toNat / 2 ^ 32))
  let h := (h.put Reg.HL_STU_SNAP_SEC_LO (BitVec.ofNat 32 t.sec)).put
    Reg.HL_STU_SNAP_SEC_HI (BitVec.ofNat 32 (t.sec / 2 ^ 32))
  (h.put Reg.HL_STU_SNAP_NS (BitVec.ofNat 32 t.ns)).put
    Reg.HL_STU_SNAP_FRAC (BitVec.ofNat 32 (t.calFrac / 2 ^ 32 + t.frac / 2 ^ 32 * 2 ^ 16))

def execStuAdj (s : State) : Out := s.hlWrite Headland.stuAdj
def execStuSet (s : State) : Out := s.hlWrite Headland.stuSet
def execStuSnapshot (s : State) : Out := s.hlWrite Headland.stuSnapshot

/-! ### The servo (R434 to R438) -/

namespace ServoState
def free : Nat := 0
def acquire : Nat := 1
def locked : Nat := 2
def holdover : Nat := 3
end ServoState

/-- A servo: its state, lock count and outliers, and y and I in 2^-10 ppb. -/
structure Servo where
  st    : Nat
  count : Nat
  outl  : Nat
  y     : Int
  i     : Int
  deriving DecidableEq, Repr

/-- Gains and limits: KP and KI in Q16.16, STEP_NS and UNLOCK_NS. -/
structure Gains where
  kp     : Nat
  ki     : Nat
  step   : Nat
  unlock : Nat
  deriving DecidableEq, Repr

/-- An exact quotient rounded to an integer, ties towards zero. -/
def divTz (n : Int) (d : Nat) : Int :=
  if 0 ≤ n then ((2 * n.toNat + d - 1) / (2 * d) : Nat) else -((2 * (-n).toNat + d - 1) / (2 * d) : Nat)

/-- ±200,000 ppb. -/
def clampPpb (v : Int) : Int := max (-204800000) (min 204800000 v)

/-- What one sample does: the servo after it, whether it was an outlier, and whether it steps. -/
structure Sampled where
  s    : Servo
  outl : Bool
  step : Bool
  deriving DecidableEq, Repr

/-- Process an offset in units of 125 ps (R436). (DEDUCED, log entry 72) -/
def Servo.sample (s : Servo) (g : Gains) (e : Int) : Sampled :=
  if s.st = ServoState.locked ∧ 8 * g.unlock < e.natAbs then
    (if s.outl + 1 = 3 then ⟨{ s with outl := 0, st := ServoState.acquire, count := 0 }, true, false⟩
     else ⟨{ s with outl := s.outl + 1 }, true, false⟩)
  else if s.st = ServoState.acquire ∧ 8 * g.step < e.natAbs then
    ⟨{ s with outl := 0, count := 0 }, false, true⟩
  else
    let i := clampPpb (s.i + divTz (g.ki * e) 512)
    let y := clampPpb (divTz (g.kp * e) 512 + i)
    let count := if e.natAbs ≤ 32 then min (s.count + 1) 64 else 0
    ⟨⟨if s.st = ServoState.acquire ∧ count = 64 then ServoState.locked else s.st, count, 0, y, i⟩, false, false⟩

/-- The source becomes valid (R435). -/
def Servo.valid (s : Servo) : Servo :=
  if s.st = ServoState.free ∨ s.st = ServoState.holdover then { s with st := ServoState.acquire, count := 0 } else s

/-- FREE: y := I. -/
def Servo.toFree (s : Servo) : Servo := { s with st := ServoState.free, y := s.i }

/-- HOLDOVER: y := I. (DEDUCED, log entry 72) -/
def Servo.toHold (s : Servo) : Servo := { s with st := ServoState.holdover, y := s.i }

/-- The source becomes invalid (R435). -/
def Servo.invalid (s : Servo) : Servo :=
  if s.st = ServoState.acquire then s.toFree else if s.st = ServoState.locked then s.toHold else s

/-- The servo that registers hold, and the status word that a servo gives. -/
def Servo.ofWords (status freq integ : Word) : Servo :=
  ⟨getF status F.HL_STU_STATUS_STATE, getF status F.HL_STU_STATUS_LOCK_COUNT,
    getF status F.HL_STU_STATUS_OUTLIERS, signed 32 freq.toNat, signed 32 integ.toNat⟩
def Servo.status (s : Servo) (w : Word) : Word :=
  setF (setF (setF w F.HL_STU_STATUS_STATE s.st) F.HL_STU_STATUS_LOCK_COUNT s.count) F.HL_STU_STATUS_OUTLIERS s.outl

def gainsOf (kp ki limits : Word) : Gains :=
  let u := getF limits F.HL_STU_LIMITS_UNLOCK_NS
  ⟨kp.toNat, ki.toNat, getF limits F.HL_STU_LIMITS_STEP_NS, if u = 0 then 4 else u⟩

def wordOf (i : Int) : Word := BitVec.ofNat 32 (wrapInt 32 i)

/-- An offset saturates in its register. -/
def satOffset (e : Int) : Word := wordOf (max (-(2 ^ 31)) (min (2 ^ 31 - 1) e))

/-- Source 430: a servo of a unit changes state (R435, R443). -/
def Headland.servoEvent (h : Headland) (unit old new : Nat) : Headland :=
  if old = new then h else h.raise Ev.servo (unit + new * 2 ^ 8 + old * 2 ^ 10)

def Headland.stuServo (h : Headland) : Servo :=
  Servo.ofWords (h.get Reg.HL_STU_STATUS) (h.get Reg.HL_STU_FREQ) (h.get Reg.HL_STU_INTEG)

def Headland.putStuServo (h : Headland) (s : Servo) : Headland :=
  let old := h.stuServo.st
  (((h.put Reg.HL_STU_STATUS (s.status (h.get Reg.HL_STU_STATUS))).put Reg.HL_STU_FREQ (wordOf s.y)).put
    Reg.HL_STU_INTEG (wordOf s.i)).servoEvent 0xFF old s.st

def Cx.tuServo (cx : Cx) : Servo :=
  Servo.ofWords (cx.get Reg.CH_TU_STATUS) (cx.get Reg.CH_TU_FREQ) (cx.get Reg.CH_TU_INTEG)

def Cx.putTuServo (cx : Cx) (s : Servo) : Cx :=
  let old := cx.tuServo.st
  (((cx.put Reg.CH_TU_STATUS (s.status (cx.get Reg.CH_TU_STATUS))).put Reg.CH_TU_FREQ (wordOf s.y)).put
    Reg.CH_TU_INTEG (wordOf s.i)).onHl fun h => h.servoEvent cx.id.val old s.st

/-- One sample of the STU's servo (R436, R437). -/
def Headland.stuSample (h : Headland) (e : Int) : Headland :=
  let g := gainsOf (h.get Reg.HL_STU_KP) (h.get Reg.HL_STU_KI) (h.get Reg.HL_STU_LIMITS)
  let r := h.stuServo.sample g e
  let h := ((h.put Reg.HL_STU_OFFSET (satOffset e)).inc Cnt.HL_CNT_STU_SAMPLES).putStuServo r.s
  let h := if r.outl then h.inc Cnt.HL_CNT_STU_OUTLIERS else h
  if r.step then (h.setStu (h.stu.setCal (h.stu.cal + e * 2 ^ 45))).inc Cnt.HL_CNT_STU_STEPS else h

/-- One sample of a channel's servo. -/
def Cx.tuSample (cx : Cx) (e : Int) : Cx :=
  let g := gainsOf (cx.get Reg.CH_TU_KP) (cx.get Reg.CH_TU_KI) (cx.get Reg.CH_TU_LIMITS)
  let r := cx.tuServo.sample g e
  let cx := (cx.put Reg.CH_TU_OFFSET (satOffset e)).putTuServo r.s
  let cx := cx.when r.outl fun cx => cx.inc Cnt.CH_CNT_TU_OUTLIERS
  cx.when r.step fun cx =>
    ({ cx with ch := cx.ch.addPhase (e * 2 ^ 45) } : Cx).inc Cnt.CH_CNT_TU_STEPS

/-! ### Sources (R416 to R419) -/

def Headland.stuSrc (h : Headland) : Nat := h.fld Reg.HL_STU_CTL F.HL_STU_CTL_SRC

/-- The channel whose head end disciplines the STU. -/
def Headland.stuChan (h : Headland) : Option ChanId :=
  let c := h.fld Reg.HL_STU_CTL F.HL_STU_CTL_CHAN
  if h.stuSrc = 1 then (if hc : c < 17 then some ⟨c, hc⟩ else none) else none

/-- The channel is the STU's source (R418). -/
def Cx.isStuSource (cx : Cx) : Bool := cx.hl.stuChan == some cx.id

/-- Source 431 (R443). -/
def Headland.timeSource (h : Headland) (lost : Bool) : Headland :=
  h.raise Ev.timeSource (h.stuSrc + h.fld Reg.HL_STU_CTL F.HL_STU_CTL_CHAN * 2 ^ 8 + b2n lost * 2 ^ 16)

/-- The STU's valid source becomes invalid (R417, R435). -/
def Headland.stuInvalid (h : Headland) : Headland :=
  if h.flg Reg.HL_STU_STATUS F.HL_STU_STATUS_SRC_VALID then
    let h := { h.setf Reg.HL_STU_STATUS F.HL_STU_STATUS_SRC_VALID 0 with pps := { h.pps with last := none } }
    (((h.inc Cnt.HL_CNT_STU_SRC_LOST).timeSource true)).putStuServo h.stuServo.invalid
  else h

/-- The STU's source becomes valid. -/
def Headland.stuValid (h : Headland) : Headland :=
  if h.flg Reg.HL_STU_STATUS F.HL_STU_STATUS_SRC_VALID then h
  else (h.setf Reg.HL_STU_STATUS F.HL_STU_STATUS_SRC_VALID 1).putStuServo h.stuServo.valid

/-- CH_TU_STATUS.STATE of the STU's source channel mirrors the STU (R418). -/
def Cx.mirrorTu (cx : Cx) : Cx :=
  if cx.isStuSource then cx.setf Reg.CH_TU_STATUS F.CH_TU_STATUS_STATE cx.hl.stuServo.st else cx

/-- STU_SOURCE and STATE of a channel that SRC names (R418). -/
def Cx.mirrorStu (cx : Cx) : Cx :=
  if cx.isStuSource then (cx.setf Reg.CH_TU_STATUS F.CH_TU_STATUS_STU_SOURCE 1).mirrorTu else cx

def State.mirrorTu (s : State) : State :=
  match s.hl.stuChan with
  | some c => s.putView c (s.view c).mirrorTu
  | none => s

/-- The head end of the channel is an eligible source (R417). -/
def Cx.tuEligible (cx : Cx) : Bool :=
  cx.mode == ModeCode.service && cx.guard == Guard.accept &&
    cx.flg Reg.CH_ACT_STATUS F.CH_ACT_STATUS_EQD_VALID

def Cx.setTu (cx : Cx) (t : Tu) : Cx := { cx with ch := { cx.ch with tu := t } }

/-- The channel's source becomes invalid, for its own unit or for the STU (R417, R418). In Stop its own unit keeps its
state (R428). -/
def Cx.tuInvalid (cx : Cx) : Cx :=
  if cx.ch.tu.valid then
    let cx := cx.setTu { cx.ch.tu with valid := false }
    if cx.isStuSource then (cx.onHl Headland.stuInvalid).mirrorTu
    else if cx.mode = ModeCode.stop then cx
    else cx.putTuServo cx.tuServo.invalid
  else cx

def Cx.armPending (cx : Cx) : Bool := cx.flg Reg.CH_TU_MSG_ARM F.CH_TU_MSG_ARM_PENDING

/-- A pending arm is discarded and counted (R432). -/
def Cx.measurementLost (cx : Cx) : Cx :=
  if cx.armPending then
    (cx.setf Reg.CH_TU_MSG_ARM F.CH_TU_MSG_ARM_PENDING 0).inc Cnt.CH_CNT_TU_MSG_LOST
  else cx

/-- Follow a change of eligibility: a source that stops being eligible loses its pending arm and becomes
invalid (R417, R432). (DEDUCED, log entry 74) -/
def Cx.tuCheck (cx : Cx) : Cx :=
  let now := cx.tuEligible
  let was := cx.ch.tu.elig
  let cx := cx.setTu { cx.ch.tu with elig := now }
  if was && !now then cx.measurementLost.tuInvalid else cx

/-! ### Offset measurements (R430 to R433) -/

def Cx.armSfc (cx : Cx) : Nat :=
  (cx.get Reg.CH_TU_MSG_SFC_LO).toNat + 2 ^ 32 * cx.fld Reg.CH_TU_MSG_SFC_HI F.CH_TU_MSG_SFC_HI_SFC_HI

/-- CH_DS_SFC: the SFC of the last accepted line frame. -/
def Cx.dsSfc (cx : Cx) : Nat :=
  (cx.get Reg.CH_DS_SFC_LO).toNat + 2 ^ 32 * (cx.get Reg.CH_DS_SFC_HI).toNat

/-- TU_MSG_ARM: firmware writes the announced SFC and time and the zero-distance delay (R430, R432).
(DEDUCED, log entry 74) -/
def Cx.tuArm (cx : Cx) (sfc : BitVec 51) (sec : BitVec 48) (ns : BitVec 30) (teqd : Word) : Cx :=
  let cx := (cx.put Reg.CH_TU_MSG_SFC_LO (BitVec.ofNat 32 sfc.toNat)).put
    Reg.CH_TU_MSG_SFC_HI (BitVec.ofNat 32 (sfc.toNat / 2 ^ 32))
  let cx := (cx.put Reg.CH_TU_MSG_SEC_LO (BitVec.ofNat 32 sec.toNat)).put
    Reg.CH_TU_MSG_SEC_HI (BitVec.ofNat 32 (sec.toNat / 2 ^ 32))
  let cx := (cx.put Reg.CH_TU_MSG_NS (BitVec.ofNat 32 ns.toNat)).put Reg.CH_TU_TEQD teqd
  let cx := cx.setf Reg.CH_TU_MSG_ARM F.CH_TU_MSG_ARM_PENDING 1
  if cx.guard = Guard.accept ∧ sfc.toNat ≤ cx.dsSfc then cx.measurementLost else cx

def execTuMsgArm (c : ChanId) (sfc : BitVec 51) (sec : BitVec 48) (ns : BitVec 30) (teqd : Word)
    (s : State) : Out :=
  s.onChan c fun cx => if cx.hl.fwUp then cx.coreWrite fun cx => cx.tuArm sfc sec ns teqd else cx

/-- The offset e of R431, in units of 125 ps. `eqd` is EQD as latched at the start marker. -/
def Cx.offset (cx : Cx) (eqd : Nat) : Int :=
  let bit := cx.fld Reg.CH_US_BIT F.CH_US_BIT_BIT_TIME
  -- in 2^-10 ps
  let rtd : Int := ((cx.get Reg.CH_TU_TEQD).toNat * 1024 : Nat) - (eqd * bit : Nat) -
    (cx.fld Reg.CH_US_RSP F.CH_US_RSP_RSP_NS * 1000 * 1024 : Nat)
  -- from here in 2^-42 ps
  let dds : Int := rtd * (cx.get Reg.CH_TU_ASYM).toNat
  let cal : Int := (cx.hl.stu.cal / 2 ^ 32 : Nat) + signed 64 cx.ch.phase - (cx.time16 % 2 ^ 13 : Nat)
  let fixed : Int := signed 32 (cx.get Reg.CH_TS_DS_FIXED).toNat * 125
  let corr : Int := signed 32 (cx.get Reg.CH_TU_CORR).toNat * 125
  let sec := (cx.get Reg.CH_TU_MSG_SEC_LO).toNat + 2 ^ 32 * cx.fld Reg.CH_TU_MSG_SEC_HI F.CH_TU_MSG_SEC_HI_SEC_HI
  let msg : Int := ((sec * 1000000000 + cx.fld Reg.CH_TU_MSG_NS F.CH_TU_MSG_NS_NS) * 1000 : Nat)
  let e := (msg + corr - fixed) * 2 ^ 42 + dds - cal * 1000 * 2 ^ 26
  (2 * e + 125 * 2 ^ 42) / (250 * 2 ^ 42)

/-- A measurement is taken (R417, R418, R431). -/
def Cx.measure (cx : Cx) (eqd : Nat) : Cx :=
  let e := cx.offset eqd
  let cx := (cx.setf Reg.CH_TU_MSG_ARM F.CH_TU_MSG_ARM_PENDING 0).inc Cnt.CH_CNT_TU_SAMPLES
  let cx := cx.setTu { cx.ch.tu with valid := true }
  if cx.isStuSource then (cx.onHl fun h => (h.stuValid).stuSample e).mirrorTu
  else (cx.putTuServo cx.tuServo.valid).tuSample e

/-- An accepted line frame meets the pending arm (R431, R432). (DEDUCED, log entry 74) -/
def Cx.armFrame (cx : Cx) (sfc : Nat) (eqd : Option Nat) : Cx :=
  if cx.armPending = false ∨ sfc < cx.armSfc then cx
  else if sfc = cx.armSfc ∧ cx.tuEligible ∧ cx.flg Reg.CH_TU_CTL F.CH_TU_CTL_EN then
    match eqd with
    | some q => cx.measure q
    | none => cx.measurementLost
  else cx.measurementLost

/-! ### Rows of the STU's sources -/

/-- The channel becomes the STU's source, or stops being it (R418). -/
def Cx.sourceEnter (cx : Cx) : Cx :=
  let cx := (((cx.put Reg.CH_TU_PHASE_LO 0).put Reg.CH_TU_PHASE_HI 0).put Reg.CH_TU_FREQ 0).setTu
    { cx.ch.tu with frac := 0 }
  cx.setf Reg.CH_TU_STATUS F.CH_TU_STATUS_STU_SOURCE 1

def Cx.sourceLeave (cx : Cx) : Cx :=
  let cx := (((cx.put Reg.CH_TU_PHASE_LO 0).put Reg.CH_TU_PHASE_HI 0).put Reg.CH_TU_FREQ 0).put Reg.CH_TU_INTEG 0
  let cx := (cx.setTu { cx.ch.tu with frac := 0 }).setf Reg.CH_TU_STATUS F.CH_TU_STATUS_STU_SOURCE 0
  cx.putTuServo ⟨if cx.ch.tu.valid && cx.flg Reg.CH_TU_CTL F.CH_TU_CTL_EN then ServoState.acquire
    else ServoState.free, 0, 0, 0, 0⟩

/-- The last accepted edge is less than 1.1 s old (R417). (DEDUCED, log entry 71) -/
def Headland.ppsFresh (h : Headland) : Bool :=
  match h.pps.last with
  | some t => decide ((h.stu.tick - t).toNat < 1100000000)
  | none => false

/-- STU_SOURCE_CHANGE: a write of HL_STU_CTL (R419). An edge before SRC became PPS_TOD is no edge of that source (R420).
(DEDUCED, log entry 71) -/
def State.stuSourceChange (s : State) (v : Word) : State :=
  let old := s.hl.stuChan
  let was := (s.hl.stuSrc, s.hl.fld Reg.HL_STU_CTL F.HL_STU_CTL_CHAN)
  let mask : Word := 0x31F03
  let hl := s.hl.put Reg.HL_STU_CTL (v &&& mask)
  let s := { s with hl := hl }
  if (hl.stuSrc, hl.fld Reg.HL_STU_CTL F.HL_STU_CTL_CHAN) = was then s
  else
    let s := match old with
      | some c => s.putView c (s.view c).sourceLeave
      | none => s
    let hl : Headland := if hl.stuSrc = was.1 then hl else { hl with pps := { hl.pps with last := none } }
    let valid := match hl.stuChan with
      | some c => s.chans[c].tu.valid
      | none => hl.stuSrc == 2 && hl.ppsFresh
    let s := match hl.stuChan with
      | some c => s.putView c (s.view c).sourceEnter
      | none => s
    let h := s.hl
    let h := h.setf Reg.HL_STU_STATUS F.HL_STU_STATUS_SRC_VALID (b2n valid)
    let h := { h with pps := { h.pps with last := hl.pps.last } }
    let st := if valid then ServoState.acquire else ServoState.free
    let h := (h.putStuServo { h.stuServo with count := 0, st := st }).timeSource false
    ({ s with hl := h } : State).mirrorTu

def execStuSourceChange (v : Word) (s : State) : Out :=
  s.access fun s => s.stuSourceChange v

/-- SOURCE_INVALID: the last sample of a source is too old, or a channel's source is no longer eligible
(R417). `none` is the PPS_TOD source. -/
def execSourceInvalid (src : Option ChanId) (s : State) : Out :=
  match src with
  | some c => s.onChan c fun cx =>
      (if cx.tuEligible then cx else cx.measurementLost).tuInvalid
  | none => s.onHl fun h => if h.stuSrc = 2 then h.stuInvalid else h

/-- The longest holdover has passed (R435). -/
def Servo.expire (s : Servo) (holdMax : Nat) : Servo :=
  if s.st = ServoState.holdover ∧ holdMax ≠ 0 then s.toFree else s

/-- HOLDOVER_EXPIRY (R435); `none` is the STU. In Stop a channel's unit keeps its state (R428). -/
def execHoldoverExpiry (unit : Option ChanId) (s : State) : Out :=
  match unit with
  | some c => s.onChan c fun cx =>
      if cx.isStuSource || cx.mode == ModeCode.stop || cx.ch.coreStopped then cx
      else cx.putTuServo (cx.tuServo.expire (cx.fld Reg.CH_TU_LIMITS F.CH_TU_LIMITS_HOLD_MAX))
  | none =>
    s.alive fun s => ({ s with hl := s.hl.putStuServo (s.hl.stuServo.expire
      (s.hl.fld Reg.HL_STU_LIMITS F.HL_STU_LIMITS_HOLD_MAX)) } : State).mirrorTu

/-- A write of CH_TU_INTEG (R438). One that leaves the field at its value is no write (R656).
(DEDUCED, log entry 162) -/
def Cx.tuInteg (cx : Cx) (v : Word) : Cx :=
  if cx.tuServo.st ≠ ServoState.free ∨ cx.get Reg.CH_TU_INTEG = v then cx
  else if cx.isStuSource then cx.put Reg.CH_TU_INTEG v
  else (cx.put Reg.CH_TU_INTEG v).put Reg.CH_TU_FREQ v

/-- A write of HL_STU_INTEG (R438). One that leaves the field at its value is no write (R656).
(DEDUCED, log entry 162) -/
def Headland.stuInteg (h : Headland) (v : Word) : Headland :=
  if h.stuServo.st ≠ ServoState.free ∨ h.get Reg.HL_STU_INTEG = v then h else (h.put Reg.HL_STU_INTEG v).put Reg.HL_STU_FREQ v

/-- INTEG_WRITE: accepted only in FREE (R438); `none` is the STU. -/
def execIntegWrite (unit : Option ChanId) (v : Word) (s : State) : Out :=
  match unit with
  | some c => s.coreWrite c fun cx => cx.tuInteg v
  | none => s.hlWrite fun h => h.stuInteg v

/-- CH_TU_CTL is written: with EN = 0 the servo stays in FREE (R427). -/
def Cx.tuCtl (cx : Cx) (en : Bool) : Cx :=
  let cx := cx.setf Reg.CH_TU_CTL F.CH_TU_CTL_EN (b2n en)
  if !en && !cx.isStuSource then cx.putTuServo cx.tuServo.toFree else cx

/-! ### PPS and ToD (R420 to R422, R616, R617) -/

/-- Units of 125 ps in a second. (DEDUCED, log entry 70) -/
def ppsSecond : Int := 8000000000

/-- The offset of an accepted edge (R421). (DEDUCED, log entry 70) -/
def Headland.ppsOffset (h : Headland) : Int :=
  let c : Int := (h.stu.cal / 2 ^ 45 : Nat)
  let delay := signed 32 (h.get Reg.HL_STU_PPS_IN_DELAY).toNat
  let sec : Int :=
    if h.flg Reg.HL_STU_PPS_SEC_HI F.HL_STU_PPS_SEC_HI_VALID then
      ((h.get Reg.HL_STU_PPS_SEC_LO).toNat + 2 ^ 32 * h.fld Reg.HL_STU_PPS_SEC_HI F.HL_STU_PPS_SEC_HI_SEC_HI : Nat)
    else (c - delay + ppsSecond / 2) / ppsSecond
  sec * ppsSecond + delay - c

/-- The edge comes 0.9 s to 1.1 s after the previous accepted edge, or is the first (R420). -/
def Headland.ppsAccept (h : Headland) : Bool :=
  match h.pps.last with
  | none => true
  | some t => decide (900000000 ≤ (h.stu.tick - t).toNat) && decide ((h.stu.tick - t).toNat ≤ 1100000000)

/-- PPS_IN_EDGE. While SRC is not PPS_TOD no edge is accepted (R416, R420). (DEDUCED, log entry 70) -/
def Headland.ppsEdge (h : Headland) : Headland :=
  if h.stuSrc = 2 ∧ h.ppsAccept then
    let e := h.ppsOffset
    let h := h.setf Reg.HL_STU_PPS_SEC_HI F.HL_STU_PPS_SEC_HI_VALID 0
    (({ h with pps := { h.pps with last := some h.stu.tick } } : Headland).stuValid).stuSample e
  else h.inc Cnt.HL_CNT_STU_PPS_BAD

def execPpsInEdge (s : State) : Out := s.onHl Headland.ppsEdge

/-- PPS_GAP_TIMEOUT: 1.1 s with no edge. (DEDUCED, log entry 70) -/
def execPpsGapTimeout (s : State) : Out :=
  s.onHl fun h => h.inc Cnt.HL_CNT_STU_PPS_BAD

/-- The second that the next rising edge of PPS_OUT begins (R422, R617). -/
def Headland.nextSecond (h : Headland) : Nat :=
  (((h.stu.cal / 2 ^ 45 : Nat) - signed 32 (h.get Reg.HL_STU_PPS_OUT_OFS).toNat) / ppsSecond + 1).toNat

/-- PPS_OUT_RISE. -/
def execPpsOutRise (s : State) : Out :=
  s.onHl fun h =>
    if h.flg Reg.HL_STU_CTL F.HL_STU_CTL_PPS_OUT_EN then
      { h with pins := { h.pins with pps := true }, pps := { h.pps with todDue := some h.nextSecond } }
    else h

/-- PPS_OUT_FALL. -/
def execPpsOutFall (s : State) : Out :=
  s.onHl fun h => { h with pins := { h.pins with pps := false } }

/-- The ToD message for a second (R616). (DEDUCED, log entry 73) -/
def Headland.todMessage (h : Headland) (sec : Nat) : List Byte :=
  let st := h.get Reg.HL_STU_STATUS
  let m := [0xC3, 0x3C, 0x01,
      BitVec.ofNat 8 (b2n (Config.todValid st) + 2 * getF st F.HL_STU_STATUS_STATE)] ++
    beBytes 6 sec ++ beBytes 2 (h.fld Reg.HL_STU_DEVID F.HL_STU_DEVID_DEVID) ++ beBytes 2 0
  m ++ beBytes 2 (crc16 m)

/-- TOD_OUT_SEND. While TEST_EN is 1 nothing is sent (R624). -/
def execTodOutSend (s : State) : Out :=
  s.onHl fun h =>
    match h.pps.todDue with
    | some sec =>
      if h.flg Reg.HL_STU_CTL F.HL_STU_CTL_TOD_OUT_EN && !h.outputsReset then
        { h with
          pins := { h.pins with todLast := h.todMessage sec, todAt := h.stu.tick }
          pps := { h.pps with todDue := none } }
      else h
    | none => h

/-- The level of the line during a message: each byte is a start bit, 8 data bits, the least significant first, and a
stop bit, at 115,200 baud (R616). -/
def serialLevel (m : List Byte) (ns : Nat) : Bool :=
  let bit := ns * 115200 / 1000000000
  if m.length * 10 ≤ bit then true
  else if bit % 10 = 0 then false
  else if bit % 10 = 9 then true
  else nbit (byteAt m (bit / 10)) (bit % 10 - 1)

/-- A ToD message is acceptable in itself (R616, R617). -/
def todOk (m : List Byte) : Bool :=
  m.length == 16 && m.take 3 == [0xC3, 0x3C, 0x01] && nbit (byteAt m 3) 0 &&
    be16 m 14 == crc16 (m.take 14)

/-- TOD_IN_MESSAGE: `inTime` says that it ends at least 100 ms before the next accepted edge. -/
def execTodInMessage (m : List Byte) (inTime : Bool) (s : State) : Out :=
  s.onHl fun h =>
    if h.fwUp = false then h
    else if todOk m && inTime then
      let sec := beNat ((m.drop 4).take 6)
      ((h.put Reg.HL_STU_PPS_SEC_LO (BitVec.ofNat 32 sec)).setf
        Reg.HL_STU_PPS_SEC_HI F.HL_STU_PPS_SEC_HI_SEC_HI (sec / 2 ^ 32)).setf
        Reg.HL_STU_PPS_SEC_HI F.HL_STU_PPS_SEC_HI_VALID 1
    else h.inc Cnt.HL_CNT_STU_TOD_BAD

/-! ### The transmit timestamp queue (R440 to R442) -/

/-- TSQ_PUSH. -/
def Cx.tsqPush (cx : Cx) (e : TsqEntry) : Cx :=
  let q := cx.ch.tsq
  if 64 ≤ q.length then
    let first := !cx.flg Reg.CH_TSQ_STATUS F.CH_TSQ_STATUS_OVF
    let cx := (cx.inc Cnt.CH_CNT_TSQ_DROP).setf Reg.CH_TSQ_STATUS F.CH_TSQ_STATUS_OVF 1
    cx.when first fun cx => cx.raise Ev.tsOverflow e.tag
  else
    let cx := ({ cx with ch := { cx.ch with tsq := q ++ [e] } } : Cx).inc Cnt.CH_CNT_TSQ_PUSH
    cx.when q.isEmpty fun cx => cx.raise Ev.tsAvail 0

/-- What CH_TSQ_STATUS, CH_TSQ_HEAD and CH_TSQ_TS read. -/
def Chan.tsqStatus (c : Chan) : Word := setF (c.get Reg.CH_TSQ_STATUS) F.CH_TSQ_STATUS_COUNT c.tsq.length
def Chan.tsqHead (c : Chan) : Word :=
  match c.tsq with
  | e :: _ => BitVec.ofNat 32 (e.tag % 2 ^ 16 + e.queue % 2 ^ 8 * 2 ^ 16 + 2 ^ 31)
  | [] => 0
def Chan.tsqTs (c : Chan) : DWord := ((c.tsq.head?).map TsqEntry.ts).getD 0

def execTsqPop (c : ChanId) (s : State) : Out :=
  s.coreWrite c fun cx => { cx with ch := { cx.ch with tsq := cx.ch.tsq.tail } }

end Sys2Proof.Machine
end

