-- ==== Sys2Proof/Machine/Activation.lean ====
section
/-!
DEFINITION. Discovery, ranging and registration (chapter 04): the identity record and its mailbox commands,
the activation states, downstream management messages and fast re-entry.
-/

namespace Sys2Proof.Machine

open Sys2Proof

/-! ### The identity record (R160, R163) -/

def Headland.idBytes (h : Headland) (c : Nat) : List Byte := Sparse.bytes h.ident (recSize * c) recSize

def Headland.idPut (h : Headland) (c off n v : Nat) : Headland :=
  { h with ident := Sparse.putLe h.ident (recSize * c + off) n v }

def Cx.idPut (cx : Cx) (off n v : Nat) : Cx := cx.onHl fun h => h.idPut cx.id.val off n v

/-- GEN increments (R160). (DEDUCED, log entry 40) -/
def Cx.idBump (cx : Cx) : Cx := cx.idPut 2 2 (cx.idGen + 1)

/-- A change of the record, which increments GEN; what leaves the record as it is, writes nothing (R160, R163). -/
def Cx.recEdit (cx : Cx) (f : Cx → Cx) : Cx :=
  let r := f cx
  if r.hl.ident = cx.hl.ident then r else r.idBump

def Cx.idPort (cx : Cx) (p : Nat) : Bool := nbit (cx.idLe (0x1000 + p / 8) 1) (p % 8)

def Cx.portCount (cx : Cx) : Nat := nbits (cx.idLe 0x58 4) 14 0
def Cx.allocCount (cx : Cx) : Nat := nbits (cx.idLe 0x58 4) 24 16

/-- Set or clear the PORT_MAP bit of a port; PORT_COUNT follows. -/
def Cx.setIdPort (cx : Cx) (p : Nat) (on : Bool) : Cx :=
  if cx.idPort p = on then cx
  else
    let b := cx.idLe (0x1000 + p / 8) 1
    let cx := cx.idPut (0x1000 + p / 8) 1 (if on then b + 2 ^ (p % 8) else b - 2 ^ (p % 8))
    let n := if on then cx.portCount + 1 else cx.portCount - 1
    cx.idPut 0x58 4 (n % 2 ^ 15 + cx.allocCount * 2 ^ 16)

/-- The ports whose PORT_MAP bit is 1. -/
def Cx.idPorts (cx : Cx) : List Nat :=
  (List.range 8192).flatMap fun b =>
    let v := cx.idLe (0x1000 + b) 1
    if v = 0 then [] else ((List.range 8).filter fun k => nbit v k).map fun k => 8 * b + k

/-- Bind a port to a flow context, or unbind it, in the registered-port table (R106, R108). -/
def Cx.bind (cx : Cx) (p : Nat) (ctx : Option Nat) : Cx :=
  { cx with ch := { cx.ch with ports := Sparse.set (fun _ => none) cx.ch.ports p ctx } }

def Cx.bound (cx : Cx) (p : Nat) : Option Nat := Sparse.get (fun _ => none) cx.ch.ports p

/-- Write allocation slot `n` of the channel and of the record (R160, R193). -/
def Cx.setAlloc (cx : Cx) (n id : Nat) (valid : Bool) : Cx :=
  let cx := (cx.setf (Reg.CH_US_SLOT n) F.CH_US_SLOT_ALLOC_ID id).setf
    (Reg.CH_US_SLOT n) F.CH_US_SLOT_VALID (b2n valid)
  let was := nbit (cx.idLe (0x80 + 4 * n) 4) 16
  let cnt := cx.allocCount + b2n valid - b2n was
  (cx.idPut (0x80 + 4 * n) 4 (id % 2 ^ 14 + b2n valid * 2 ^ 16)).idPut 0x58 4 (cx.portCount + cnt * 2 ^ 16)

def Cx.recAlloc (cx : Cx) (n : Nat) : Nat := nbits (cx.idLe (0x80 + 4 * n) 4) 13 0
def Cx.recAllocValid (cx : Cx) (n : Nat) : Bool := nbit (cx.idLe (0x80 + 4 * n) 4) 16

/-- All allocations are cleared. -/
def Cx.clearAllocs (cx : Cx) : Cx :=
  (List.range 256).foldl (fun cx n =>
    cx.when (cx.recAllocValid n || cx.flg (Reg.CH_US_SLOT n) F.CH_US_SLOT_VALID) fun cx => cx.setAlloc n 0 false) cx

def Cx.idValid (cx : Cx) : Bool := cx.flg Reg.CH_ACT_STATUS F.CH_ACT_STATUS_ID_VALID
def Cx.terminalId (cx : Cx) : Nat := cx.fld Reg.CH_ACT_STATUS F.CH_ACT_STATUS_TERMINAL_ID
def Cx.recTid (cx : Cx) : Nat := nbits (cx.idLe 0x34 4) 9 0

/-- The default management port, if one is registered (R162). -/
def Cx.mgmtPort (cx : Cx) : Option Nat :=
  if cx.idValid then some cx.terminalId
  else if cx.recState = Rec.registered then some cx.recTid else none

/-- Release the default management port (R162). (DEDUCED, log entry 122) -/
def Cx.dropMgmtPort (cx : Cx) : Cx :=
  match cx.mgmtPort with
  | some p => (cx.bind p none).setIdPort p false
  | none => cx

/-- Write the terminal ID to the channel and the record, with the default management port (R162, R163). An ID that equals
the number of a registered data port binds that port anew, and its release takes the port with it: a number has one
binding and one PORT_MAP bit. (DEDUCED, log entry 122) -/
def Cx.putTid (cx : Cx) (id : Option Nat) : Cx :=
  let cx := cx.dropMgmtPort
  let cx := ((cx.setf Reg.CH_ACT_STATUS F.CH_ACT_STATUS_TERMINAL_ID (id.getD 0)).setf
    Reg.CH_ACT_STATUS F.CH_ACT_STATUS_ID_VALID (b2n id.isSome)).idPut 0x34 4 (id.getD 0)
  match id with
  | some p => (cx.bind p (some (cx.fld Reg.CH_ACT_CFG F.CH_ACT_CFG_MGMT_CTX))).setIdPort p true
  | none => cx

/-- Write EQD to the channel and the record (R154, R155). -/
def Cx.putEqd (cx : Cx) (v : Nat) (valid : Bool) : Cx :=
  ((cx.put Reg.CH_ACT_EQD (BitVec.ofNat 32 v)).setf Reg.CH_ACT_STATUS F.CH_ACT_STATUS_EQD_VALID
    (b2n valid)).idPut 0x38 4 v

/-- The terminal ID is lost: the default management port goes with it (R145, R162). (DEDUCED, log entry 39) -/
def Cx.dropId (cx : Cx) : Cx :=
  (cx.putTid none).setf Reg.CH_ACT_STATUS F.CH_ACT_STATUS_EQD_VALID 0

/-- The terminal ID of a record that is not registered is dropped where no activation holds it (R162). -/
def Cx.dropStaleId (cx : Cx) : Cx :=
  cx.when (cx.idValid && cx.recState != Rec.registered) fun cx => cx.recEdit Cx.dropId

/-- Lower a REGISTERED record (R165, R168): terminal ID and allocations go, the data ports stay. -/
def Cx.lowerRecord (cx : Cx) (st : Nat) : Cx :=
  (cx.dropId.clearAllocs.idPut 0 1 st).idBump

/-! ### States (R144 to R147, R165 to R168) -/

def Cx.setActAux (cx : Cx) (a : ActAux) : Cx := { cx with ch := { cx.ch with act := a } }

def Cx.setFast (cx : Cx) (b : Bool) : Cx := cx.setf Reg.CH_MODE F.CH_MODE_FAST (b2n b)

/-- The conditions of R165. -/
def Cx.fastOk (cx : Cx) : Bool :=
  cx.flg Reg.CH_MODE_CTL F.CH_MODE_CTL_FAST_OK && cx.recState == Rec.registered && nbit (cx.idLe 0x54 4) 0 &&
    cx.idLe 1 1 == cx.fld Reg.CH_DS_CFG F.CH_DS_CFG_MODE &&
    decide (cx.hl.stu.tick.toNat - cx.idLe 0x48 8 ≤ 1000000 * cx.fld Reg.CH_ACT_FAST F.CH_ACT_FAST_HOLD)

/-- The ports of PORT_MAP keep their bindings, and those without one are released; answers how many were
(R167). (DEDUCED, log entry 40) -/
def Cx.restorePorts (cx : Cx) : List Nat → Nat → Cx × Nat
  | [], n => (cx, n)
  | p :: ps, n =>
    if (cx.bound p).isSome then cx.restorePorts ps n
    else ((cx.setIdPort p false).idBump).restorePorts ps (n + 1)

/-- Keys of KEY_SLOTS are delivered again (R166, R563). -/
def Cx.restoreKeys (cx : Cx) : Cx :=
  let slots := nbits (cx.idLe 0x50 4) 9 8
  cx.deliverKeys (([1, 2].filter fun s => nbit slots (s - 1)).map fun s => keyIndex (cx.idLe 0x50 1) s)

/-- Step 1 of R166. -/
def Cx.fastStart (cx : Cx) : Cx :=
  let tid := cx.recTid
  let cx := (((cx.setf Reg.CH_ACT_STATUS F.CH_ACT_STATUS_TERMINAL_ID tid).setf
    Reg.CH_ACT_STATUS F.CH_ACT_STATUS_ID_VALID 1).put Reg.CH_ACT_EQD (BitVec.ofNat 32 (cx.idLe 0x38 4))).setf
    Reg.CH_ACT_STATUS F.CH_ACT_STATUS_EQD_VALID 1
  let cx := (List.range 256).foldl (fun cx n =>
    (cx.setf (Reg.CH_US_SLOT n) F.CH_US_SLOT_ALLOC_ID (cx.recAlloc n)).setf
      (Reg.CH_US_SLOT n) F.CH_US_SLOT_VALID (b2n (cx.recAllocValid n))) cx
  let cx := cx.bind tid (some (cx.fld Reg.CH_ACT_CFG F.CH_ACT_CFG_MGMT_CTX))
  let r := cx.restorePorts cx.idPorts 0
  let cx := r.1.restoreKeys
  let cx := cx.when (r.2 != 0) fun cx =>
    let w := Act.fastReentry + cx.actState * 16 + tid * 2 ^ 8
    cx.logDue LogKind.activation [w, cx.idGen]
  let cx := cx.setActAux { cx.ch.act with
    count := none, grant := false
    wait := max 1 (cx.fld Reg.CH_ACT_FAST F.CH_ACT_FAST_WAIT)
    hold := cx.fld Reg.CH_ACT_FAST F.CH_ACT_FAST_HOLD }
  (cx.setFast true).setAct Act.fastReentry

/-- The activation state with which a channel enters Acquire (R147, R165). -/
def Cx.beginActivation (cx : Cx) : Cx :=
  if cx.recState = Rec.stopped then (cx.setFast false).setAct Act.emergencyStop
  else if cx.fastOk then cx.fastStart
  else
    let cx := if cx.recState = Rec.registered then cx.lowerRecord Rec.serial else cx.dropStaleId
    let same := cx.actState == Act.initial
    let cx := (cx.setFast false).setAct Act.initial
    cx.when (same && cx.recState == Rec.empty) fun cx => cx.actReport Act.initial Act.initial

/-- A Stop entry under way ends when the channel leaves Service, from which alone it can reach Stop (R58).
(DEDUCED, log entry 139) -/
def Cx.endEntry (cx : Cx) : Cx := if cx.phase = Phase.entering then cx.setPhase Phase.run else cx

/-- Activation begins in Acquire (R58). -/
def Cx.startAcquire (cx : Cx) : Cx := (cx.endEntry.setMode ModeCode.acquire).beginActivation

/-- Enter Acquire from Disabled or Handover (R58, R354). Every watched doorbell line is read. -/
def Cx.enterAcquire (cx : Cx) : Cx := cx.startAcquire.triggerAll

/-- What RESUME comes to is settled when the target leaves Handover (R545). -/
def Headland.hoSettle (h : Headland) (result : Nat) : Headland :=
  { h with ho := h.ho.map fun ho => { ho with result := some result } }

/-- A change of mode that is entered from Handover reads every watched doorbell line (R354), and settles what RESUME
comes to (R545). -/
def Cx.fromHandover (cx : Cx) (result : Nat) (f : Cx → Cx) : Cx :=
  if cx.resuming then ((f cx).triggerAll).onHl fun h => h.hoSettle result else f cx

/-- Registration is lost: Service, or a handover target in RESUME, to Acquire, to a given state (R58, R145,
R545). -/
def Cx.loseService (cx : Cx) (st : Nat) : Cx :=
  let cx := if cx.mode = ModeCode.service ∨ cx.resuming then
      cx.fromHandover HoResult.doneAcquire fun cx =>
        ((cx.endEntry.setMode ModeCode.acquire).setf Reg.CH_PWR_STATUS F.CH_PWR_STATUS_IDLE_EXPIRED 0).setFast false
    else cx
  cx.setAct st

/-- Registration completes, or fast re-entry is accepted (R58, R145, R166, R545). -/
def Cx.enterOperation (cx : Cx) : Cx :=
  let cx := cx.setAct Act.operation
  if cx.mode = ModeCode.acquire ∨ cx.resuming then
    cx.fromHandover HoResult.doneService fun cx => (cx.setMode ModeCode.service).idleRestart
  else cx

/-- Fast re-entry fails (R168). A handover target in RESUME moves to Acquire (R545). (DEDUCED, log entry 44) -/
def Cx.fastFail (cx : Cx) : Cx :=
  let cx := (cx.lowerRecord Rec.serial).inc Cnt.CH_CNT_ACT_FAST_FAIL
  let cx := (cx.setActAux { cx.ch.act with count := none, grant := false }).setAct Act.initial
  if cx.resuming then cx.fromHandover HoResult.doneAcquire fun cx => cx.setMode ModeCode.acquire else cx

/-- The head end accepts fast re-entry (R166). -/
def Cx.fastAccept (cx : Cx) : Cx :=
  ((cx.setActAux { cx.ch.act with count := none, grant := false }).inc Cnt.CH_CNT_ACT_FAST_OK).enterOperation

/-- The head end's identity is announced (R160, R166, R168). -/
def Cx.announce (cx : Cx) (id : Nat) : Cx :=
  let cx := cx.setActAux { cx.ch.act with headEnd := id }
  let st := cx.actState
  if st = Act.operation ∨ st = Act.lods then
    (if cx.idLe 0x3C 4 = id then cx else (cx.idPut 0x3C 4 id).idBump)
  else if st = Act.fastReentry then
    if cx.idLe 0x3C 4 ≠ id then cx.fastFail
    else if cx.guard = Guard.accept ∧ cx.ch.act.count = none then cx.setActAux { cx.ch.act with count := some 0 }
    else cx
  else cx

/-- FAST_CAPABLE is set or cleared (R164). -/
def Cx.setFastCapable (cx : Cx) (v : Bool) : Cx :=
  let w := cx.idLe 0x54 4
  if nbit w 0 = v then cx else (cx.idPut 0x54 4 (w / 2 * 2 + b2n v)).idBump

/-- SLEEP_PERMIT and PERMIT (R160, R470). Its withdrawal is a wake source (R475). -/
def Cx.setSleep (cx : Cx) (v : Bool) : Cx :=
  let w := cx.idLe 0x54 4
  let cx := cx.setf Reg.CH_PWR_STATUS F.CH_PWR_STATUS_PERMIT (b2n v)
  if nbit w 1 = v then cx
  else ((cx.idPut 0x54 4 (w % 2 + b2n v * 2)).idBump).when (!v) fun cx => cx.wakeSource Wk.firmware

/-- Write a burst profile (R217). -/
def Cx.putProfile (cx : Cx) (p psb : Nat) (fec valid : Bool) : Cx :=
  ((cx.setf (Reg.CH_US_PROFILE p) F.CH_US_PROFILE_PSB_LEN psb).setf
    (Reg.CH_US_PROFILE p) F.CH_US_PROFILE_FEC_ON (b2n fec)).setf (Reg.CH_US_PROFILE p) F.CH_US_PROFILE_VALID (b2n valid)

/-- The lowest allocation slot of the record for which `f` holds. -/
def allocWhere (f : Nat → Bool) : Option Nat := (List.range 256).find? f

/-- An allocation is assigned, in the lowest free slot, or withdrawn (R160, R193). One that finds all 256 entries valid
is dropped. (DESIGN CHOICE, log entry 123) -/
def Cx.assignAlloc (cx : Cx) (id : Nat) : Cx :=
  if (allocWhere fun n => cx.recAllocValid n && cx.recAlloc n == id).isSome then cx
  else match allocWhere fun n => !cx.recAllocValid n with
    | some n => (cx.setAlloc n id true).idBump
    | none => cx
def Cx.withdrawAlloc (cx : Cx) (id : Nat) : Cx :=
  match allocWhere fun n => cx.recAllocValid n && cx.recAlloc n == id with
  | some n => (cx.setAlloc n 0 false).idBump
  | none => cx

/-! ### The move to SERIAL_NUMBER (R144, R149, R152, R172) -/

/-- Burst profiles of the receive mode (R217). -/
def Cx.profiles (cx : Cx) : Nat := if cx.dsMode = DsMode.ext100 then 8 else 4

/-- A burst profile has been learnt. (DEDUCED, log entry 41) -/
def Cx.profileLearnt (cx : Cx) : Bool :=
  (List.range cx.profiles).any fun n => cx.flg (Reg.CH_US_PROFILE n) F.CH_US_PROFILE_VALID

/-- A management message of EXT_100 as the channel sends it: the terminal ID, the type, the sequence number and the
content in `body`, and the MIC (R174). -/
def Cx.extMessage (cx : Cx) (tid : Nat) (body : List Byte) : List Byte :=
  let m := beBytes 2 (tid % 1024) ++ (body ++ List.replicate 38 0).take 38
  m ++ beBytes 8 (Config.mic cx.id.val m cx.hl.stu.tick).toNat

/-- The serial-number message for the response template (R149). In EXT_100 it is broadcast in the layout of R174
(R176). -/
def Cx.snMessage (cx : Cx) : List Byte :=
  let mode := cx.fld Reg.CH_DS_CFG F.CH_DS_CFG_MODE
  let t := Config.snTemplate mode (BitVec.ofNat 64 (cx.idLe 8 8))
  if mode = DsMode.ext100 then cx.extMessage 0x3FF t else t

/-- The idle message (R158); in EXT_100 IDLE of R175. (DESIGN CHOICE, log entry 154) -/
def Cx.idleMessage (cx : Cx) (mode : Nat) : List Byte :=
  if mode = DsMode.ext100 then cx.extMessage (if cx.idValid then cx.terminalId else 0x3FF) [0xE0]
  else (Config.idleMessage mode cx.terminalId ++ List.replicate 48 0).take 48

/-- DEDUCED. INITIAL waits for ACCEPT and learns burst profiles (R144); with both, and a serial number in the record
(R172), firmware places the serial-number message in the response template and moves to SERIAL_NUMBER.
(DEDUCED, log entry 41) -/
def Cx.progress (cx : Cx) : Cx :=
  if cx.actState = Act.initial ∧ cx.guard = Guard.accept ∧ (cx.recState = Rec.serial ∨ cx.recState = Rec.registered) ∧
      cx.profileLearnt then
    (cx.onHl fun h => { h with mq := h.mq.set cx.id { h.mq[cx.id] with template := cx.snMessage } }).setAct Act.serialNumber
  else cx

/-! ### Downstream management messages (R145, R155 to R157, R174, R175) -/

/-- TX_EN falls, at the builder and at the pin. -/
def Cx.txOff (cx : Cx) : Cx := { cx with ch := { cx.ch with us := { cx.ch.us with txEn := false, bld := false } } }

/-- What firmware does on a message, as the standard in use defines, in the state that allows it.
(DEDUCED, log entries 39, 43 and 153) -/
def Cx.mgmtAct (cx : Cx) (a : MgmtAct) : Cx :=
  let st := cx.actState
  let reg := st == Act.operation || st == Act.lods
  if st = Act.off then cx
  else match a with
  | .profile p psb fec valid => if p.val < cx.profiles then cx.putProfile p psb.toNat fec valid else cx
  | .preEqd v =>
    if st = Act.initial ∨ st = Act.serialNumber then cx.recEdit fun cx => cx.putEqd v.toNat false else cx
  | .assignId id => if st = Act.serialNumber then (cx.recEdit fun cx => cx.putTid (some id.val)).setAct Act.ranging else cx
  | .ranged v => if st = Act.ranging ∨ reg then cx.recEdit fun cx => cx.putEqd v.toNat true else cx
  | .eqdAdjust neg d =>
    if reg then
      let e := cx.get Reg.CH_ACT_EQD
      cx.recEdit fun cx => cx.putEqd (if neg then e - d else e + d).toNat true
    else cx
  | .registered =>
    if st = Act.ranging ∧ cx.flg Reg.CH_ACT_STATUS F.CH_ACT_STATUS_EQD_VALID then
      let cx := ((cx.idPut 0 1 Rec.registered).idPut 1 1 (cx.fld Reg.CH_DS_CFG F.CH_DS_CFG_MODE)).idPut 0x3C 4
        cx.ch.act.headEnd
      ((cx.idPut 0x40 8 cx.hl.stu.tick.toNat).idBump).enterOperation
    else cx
  | .withdrawId =>
    if st = Act.fastReentry then cx.fastFail
    else if cx.idValid then (cx.lowerRecord Rec.serial).loseService Act.initial
    else cx
  | .allocAssign id => if cx.idValid then cx.assignAlloc id.toNat else cx
  | .allocRelease id => if cx.idValid then cx.withdrawAlloc id.toNat else cx
  | .headEnd id => cx.announce id.toNat
  | .emergencyStop =>
    if st = Act.emergencyStop ∨ cx.recState = Rec.empty then cx
    else
      ((cx.lowerRecord Rec.stopped).loseService Act.emergencyStop).txOff
  | .emergencyEnd =>
    if st = Act.emergencyStop then ((cx.idPut 0 1 Rec.serial).idBump).setAct Act.initial else cx
  | .sleep v => cx.setSleep v
  | .keySlots set slots =>
    let w := set.toNat + slots.toNat * 2 ^ 8
    if cx.idLe 0x50 4 = w then cx else (cx.idPut 0x50 4 w).idBump

/-- An EXT_PROFILE message (R175). (DEDUCED, log entry 43) -/
def Cx.extProfile (cx : Cx) (m : List Byte) : Cx :=
  let fl := byteAt m 8
  if byteAt m 4 ≠ 1 ∨ 4095 < be16 m 6 then cx
  else
    let cx := cx.putProfile (byteAt m 5 % 8) (be16 m 6) (nbit fl 0) (nbit fl 1)
    (cx.announce (be16 m 12 * 65536 + be16 m 14)).setFastCapable (nbit fl 2)

/-- Firmware can act on the channel: it runs (R572), and so does the channel's core clock (R45). -/
def Cx.fwActs (cx : Cx) : Bool := cx.hl.fwUp && !cx.ch.coreStopped

/-- What firmware does on a message needs the channel awake: the activation state machine is to answer the head end
(R475). (DEDUCED, log entry 43) -/
def MgmtAct.answers : MgmtAct → Bool
  | .profile _ _ _ _ | .headEnd _ | .sleep _ | .keySlots _ _ => false
  | .preEqd _ | .assignId _ | .ranged _ | .eqdAdjust _ _ | .registered | .withdrawId | .allocAssign _ | .allocRelease _
  | .emergencyStop | .emergencyEnd => true

/-- DS_MGMT_MESSAGE: firmware takes the oldest message (R156, R157, R159). `ok`: its integrity code and
sequence number pass. `acts` is what the standard in use makes firmware do on it, and `replies` the upstream
messages it queues; firmware waits while these do not fit, and while the channel is in Stop and has to wake first
(R475). (DEDUCED, log entry 43) -/
def Cx.mgmtMessage (cx : Cx) (ok : Bool) (acts : List MgmtAct) (replies : List (List Byte)) : Cx :=
  let q := cx.hl.mq[cx.id]
  match q.down with
  | [] => cx
  | m :: rest =>
    let t := byteAt m 2
    let own := cx.dsMode == DsMode.ext100 && decide (0xE0 ≤ t) && decide (t ≤ 0xEF)
    if 8 < q.up.length + replies.length then cx
    else if cx.ch.coreStopped && ok && !own && (!replies.isEmpty || acts.any MgmtAct.answers) then cx.wakeSource Wk.firmware
    else
      let cx := cx.onHl fun h => { h with mq := h.mq.set cx.id { q with down := rest } }
      let cx := cx.setActAux { cx.ch.act with ahead := cx.ch.act.ahead - 1 }
      if ok = false then cx
      else if own then (if t = 0xE1 then cx.extProfile m else cx).progress.tuCheck
      else
        let cx := cx.onHl fun h => { h with mq := h.mq.set cx.id { h.mq[cx.id] with up := q.up ++ replies } }
        (acts.foldl Cx.mgmtAct cx).progress.tuCheck

/-- DEDUCED, log entry 43. -/
def execDsMgmtMessage (c : ChanId) (ok : Bool) (acts : List MgmtAct) (replies : List (List Byte))
    (s : State) : Out :=
  s.onChan c fun cx => if cx.hl.fwUp then cx.mgmtMessage ok acts replies else cx

/-- TO1 has expired: the terminal ID is discarded (R145). -/
def Cx.to1Expired (cx : Cx) : Cx :=
  if cx.actState = Act.ranging then (cx.recEdit Cx.dropId).setAct Act.serialNumber else cx

/-- TO2 has expired: registration is lost (R145, R165). -/
def Cx.to2Expired (cx : Cx) : Cx :=
  if cx.actState = Act.lods ∧ cx.mode = ModeCode.service then cx.startAcquire.tuCheck else cx

/-- TO1_EXPIRY. One that falls in a restart of firmware is acted on at READY (R572). (DEDUCED, log entry 39) -/
def execTo1Expiry (c : ChanId) (s : State) : Out :=
  s.onChan c fun cx =>
    if cx.actState ≠ Act.ranging then cx
    else if cx.fwActs then cx.to1Expired
    else cx.setActAux { cx.ch.act with to1 := true }

/-- TO2_EXPIRY. One that falls in a restart of firmware is acted on at READY (R572). TO2 does not run while the channel is
in Stop or waking (R481). -/
def execTo2Expiry (c : ChanId) (s : State) : Out :=
  s.onChan c fun cx =>
    if cx.actState ≠ Act.lods ∨ cx.ch.coreStopped then cx
    else if cx.fwActs then cx.to2Expired
    else cx.setActAux { cx.ch.act with to2 := true }

/-- FAST_REENTRY_ACCEPT: a map has granted one of the record's allocations in time (R166). A message of the same line
frame prevails over the grant, so firmware reads first what came with it (R168). -/
def execFastReentryAccept (c : ChanId) (s : State) : Out :=
  s.onChan c fun cx =>
    if cx.actState = Act.fastReentry ∧ cx.ch.act.grant ∧ cx.ch.act.ahead = 0 ∧ cx.fwActs then cx.fastAccept.tuCheck
    else cx

/-- WAIT line frames have passed with no such grant, or HOLD has passed before ACCEPT (R168).
(DEDUCED, log entry 44) -/
def Cx.fastExpired (cx : Cx) : Bool :=
  (match cx.ch.act.count with
   | some n => decide (cx.ch.act.wait ≤ n) && !cx.ch.act.grant
   | none => false) ||
  (cx.guard != Guard.accept && decide (1000000 * cx.ch.act.hold < cx.hl.stu.tick.toNat - cx.idLe 0x48 8))

/-- DEDUCED, log entry 44. -/
def execFastReentryFail (c : ChanId) (s : State) : Out :=
  s.onChan c fun cx =>
    if cx.actState = Act.fastReentry ∧ cx.fastExpired ∧ cx.fwActs then cx.fastFail.progress else cx

/-! ### Persist copies and mailbox commands (R163, R169, R170) -/

/-- IDENTITY_PERSIST: a record whose GEN differs from that of its copy is copied; `ok` is the persist port's
answer (R163, R619). -/
def execIdentityPersist (c : ChanId) (ok : Bool) (s : State) : Out :=
  s.onHl fun h =>
    if h.fwUp = false ∨ h.idLe c 2 2 = Sparse.le h.psIdent (recSize * c + 2) 2 then h
    else if ok then { h with psIdent := Sparse.putBytes h.psIdent (recSize * c) (h.idBytes c) }
    else h.inc Cnt.HL_CNT_PS_ERR

/-- A command on one channel as a channel operation. -/
def chanRun (f : Cx → Cx × Nat) (c : ChanId) (s : State) : State × Nat :=
  let r := f (s.view c)
  (s.putView c r.1, r.2)

/-- The channel is in Handover, or is the source or the target of the handover that runs (R170, R547). -/
def Cx.inHandover (cx : Cx) : Bool :=
  cx.mode == ModeCode.handover || (match cx.hl.ho with
    | some ho => ho.src == cx.id.val || ho.tgt == cx.id.val
    | none => false)

def State.duplicateSerial (s : State) (c : ChanId) (serial : Nat) : Bool :=
  (List.range 17).any fun d => d != c.val && s.hl.idLe d 0 1 != Rec.empty && s.hl.idLe d 8 8 == serial

/-- The fallow channel holds no identity record (R37). (DEDUCED, log entry 121) -/
def execSerialSet (m : CmdHead) (serial : DWord) (regId : BitVec 288) (s : State) : Out :=
  s.chanCommand m 0x0101 true fun c s =>
    chanRun (fun cx =>
      if cx.inHandover then (cx, MbStatus.busy)
      else if cx.mode ≠ ModeCode.disabled ∨ Rec.serial < cx.recState ∨ cx.flg Reg.CH_MODE F.CH_MODE_FALLOW then
        (cx, MbStatus.badState)
      else if s.duplicateSerial c serial.toNat then (cx, MbStatus.duplicate)
      else
        (cx.recEdit fun cx => ((cx.idPut 8 8 serial.toNat).idPut 0x10 36 regId.toNat).idPut 0 1 Rec.serial,
          MbStatus.ok)) c s

def execIdentityRead (m : CmdHead) (addr : DWord) (s : State) : Out :=
  s.chanCommand m 0x0102 false fun c s =>
    chanRun (fun cx =>
      if addr.toNat % 64 ≠ 0 then (cx, MbStatus.badArg)
      else if cx.inHandover then (cx, MbStatus.busy)
      else (cx.onHl fun h => h.hostWrite .image addr.toNat (h.idBytes c), MbStatus.ok)) c s

/-- The whole record becomes zero with the registers that reflect it, and the key sets are cleared (R163,
R563). (DEDUCED, log entry 40) -/
def Cx.clearIdentity (cx : Cx) : Cx :=
  let cx := cx.idPorts.foldl (fun cx p => cx.bind p none) cx
  let cx := (cx.clearAllocs.put Reg.CH_ACT_EQD 0).put Reg.CH_ACT_STATUS (cx.get Reg.CH_ACT_STATUS &&& 0xFC00FFCF)
  let cx := cx.setf Reg.CH_PWR_STATUS F.CH_PWR_STATUS_PERMIT 0
  let c := cx.id.val
  { cx with
    ch := { cx.ch with keys := [] }
    hl := { cx.hl with
      ident := cx.hl.ident.filter fun e => decide (e.1 < recSize * c) || decide (recSize * (c + 1) ≤ e.1)
      keyStore := cx.hl.keyStore.filter fun e => e.1 / 512 != c } }

def execIdentityClear (m : CmdHead) (s : State) : Out :=
  s.chanCommand m 0x0103 true fun c s =>
    chanRun (fun cx =>
      if cx.inHandover then (cx, MbStatus.busy)
      else if cx.modeIn [ModeCode.disabled, ModeCode.halted] then (cx.clearIdentity, MbStatus.ok)
      else (cx, MbStatus.badState)) c s

/-- PORT_REGISTER. Naming the default management port, it is answered OK and binds that port to the context it gives:
R169 protects that port from PORT_RELEASE alone. (DEDUCED, log entry 124) -/
def execPortRegister (m : CmdHead) (port : BitVec 16) (ctx : BitVec 14) (s : State) : Out :=
  s.chanCommand m 0x0104 true fun c s =>
    chanRun (fun cx =>
      if cx.inHandover then (cx, MbStatus.busy)
      else if cx.modeIn [ModeCode.disabled, ModeCode.acquire, ModeCode.service] = false ∨
          cx.recState = Rec.empty then (cx, MbStatus.badState)
      else if cx.idPort port.toNat = false ∧ 16384 ≤ cx.portCount then (cx, MbStatus.full)
      else (cx.recEdit fun cx => (cx.bind port.toNat (some ctx.toNat)).setIdPort port.toNat true, MbStatus.ok)) c s

def execPortRelease (m : CmdHead) (port : BitVec 16) (s : State) : Out :=
  s.chanCommand m 0x0105 true fun c s =>
    chanRun (fun cx =>
      if cx.inHandover then (cx, MbStatus.busy)
      else if cx.idPort port.toNat = false then (cx, MbStatus.notFound)
      else if cx.mgmtPort = some port.toNat then (cx, MbStatus.protected_)
      else (cx.recEdit fun cx => (cx.bind port.toNat none).setIdPort port.toNat false, MbStatus.ok)) c s

/-- The fallow channel holds no identity record (R37). (DEDUCED, log entry 121) -/
def execFastPolicy (m : CmdHead) (v : Bool) (s : State) : Out :=
  s.chanCommand m 0x0106 true fun c s =>
    chanRun (fun cx =>
      if cx.inHandover then (cx, MbStatus.busy)
      else if cx.flg Reg.CH_MODE F.CH_MODE_FALLOW then (cx, MbStatus.badState)
      else (cx.setFastCapable v, MbStatus.ok)) c s

end Sys2Proof.Machine
end

