-- ==== Sys2Proof/Machine/Upstream.lean ====
section
/-!
DEFINITION. Upstream grants and burst building (chapter 05): the bandwidth map, frame selection, envelopes,
the content of a burst, TX_EN and the burst guard.
-/

namespace Sys2Proof.Machine

open Sys2Proof

/-! ### Units (R178) -/

/-- Bytes in a unit u, the upstream frame in units of u, and the largest LEAD_US, by mode (R178, R200). -/
def unitBytes (mode : Nat) : Nat :=
  if mode = DsMode.g9807 then 4 else if mode = DsMode.ext100 then 8 else 16
def frameUnits (mode : Nat) : Nat :=
  if mode = DsMode.g9807 then 38880 else if mode = DsMode.g9804_50_25 then 24300
  else if mode = DsMode.g9804_50_50 then 48600 else 194400
def leadMax (mode : Nat) : Nat :=
  if mode = DsMode.g9807 then 203 else if mode = DsMode.g9804_50_25 then 81
  else if mode = DsMode.g9804_50_50 then 40 else 20

/-- Bytes of a burst header, report or trailer (R187). -/
def itemBytes (mode : Nat) : Nat := if mode = DsMode.ext100 then 8 else 4

/-- One ns in units of 2^-10 ps. -/
def nsQ : Nat := 1024000

def Cx.bitQ (cx : Cx) : Nat := cx.fld Reg.CH_US_BIT F.CH_US_BIT_BIT_TIME

/-- A signed register in units of 125 ps, in units of 2^-10 ps. -/
def Cx.fixedQ (cx : Cx) (off : Nat) : Int := signed 32 (cx.get off).toNat * 128000

/-- The channel's time now, in units of 2^-10 ps. -/
def Cx.nowQ (cx : Cx) : Int := (cx.time8.toNat * 128000 : Nat)

/-- FEC applies to a profile (R185, R215). -/
def Cx.fecOn (cx : Cx) (profile : Nat) : Bool :=
  let k := cx.fld Reg.CH_US_FEC F.CH_US_FEC_K
  cx.flg (Reg.CH_US_PROFILE profile) F.CH_US_PROFILE_FEC_ON && k != 0 && decide (k ≤ cx.fld Reg.CH_US_FEC F.CH_US_FEC_N)

/-- Content bytes of a grant of `g` bytes (R185). -/
def Cx.grantCap (cx : Cx) (profile g : Nat) : Nat :=
  let k := cx.fld Reg.CH_US_FEC F.CH_US_FEC_K
  let n := cx.fld Reg.CH_US_FEC F.CH_US_FEC_N
  if cx.fecOn profile then g / n * k + (g % n - (n - k)) else g

/-- Offset at the medium of content byte `b` (R215). -/
def Cx.medByte (cx : Cx) (profile b : Nat) : Nat :=
  let k := cx.fld Reg.CH_US_FEC F.CH_US_FEC_K
  if cx.fecOn profile then b / k * cx.fld Reg.CH_US_FEC F.CH_US_FEC_N + b % k else b

/-- Medium time of content byte `b` of a burst. -/
def Cx.medTime (cx : Cx) (bu : Burst) (b : Nat) : Int :=
  bu.sMed + (cx.medByte bu.profile b * 8 * cx.bitQ : Nat)

/-! ### The bandwidth map (R179 to R188) -/

/-- The fields of an allocation structure. -/
structure Alloc where
  id      : Nat
  report  : Bool
  msg     : Bool
  fwi     : Bool
  profile : Nat
  start   : Nat
  size    : Nat
  deriving DecidableEq, Repr

def alloc8 (w : Nat) : Alloc :=
  ⟨nbits w 63 50, nbit w 49, nbit w 48, nbit w 15, nbits w 14 13, nbits w 47 32, nbits w 31 16⟩

def alloc16 (v : Nat) : Alloc :=
  let w := v / 2 ^ 64
  ⟨nbits w 63 50, nbit w 49, nbit w 48, nbit w 47, nbits w 46 44, nbits w 39 20, nbits w 19 0⟩

/-- Check 1 of R181. -/
def Cx.readAlloc (cx : Cx) (mode : Nat) (e : MapEntry) : Cx × Option Alloc :=
  if mode = DsMode.ext100 then
    if crc16 ((beBytes 16 e.raw.toNat).take 14) = e.raw.toNat % 65536 then (cx, some (alloc16 e.raw.toNat))
    else (cx.inc Cnt.CH_CNT_US_MAP_ERR, none)
  else
    let w := BitVec.ofNat 64 e.raw.toNat
    let a := alloc8 (if mode = DsMode.g9807 then w.toNat else (Config.alloc9804 w).toNat)
    match e.hec with
    | .ok => (cx, some a)
    | .corrected => (cx.inc Cnt.CH_CNT_US_MAP_HEC_CORR, some a)
    | .uncorr => (cx.inc Cnt.CH_CNT_US_MAP_ERR, none)

/-- The valid allocation slot that holds an allocation ID. -/
def Cx.slotOfAlloc (cx : Cx) (id : Nat) : Option Nat :=
  (List.range 256).find? fun n =>
    cx.flg (Reg.CH_US_SLOT n) F.CH_US_SLOT_VALID && cx.fld (Reg.CH_US_SLOT n) F.CH_US_SLOT_ALLOC_ID == id

/-- DEDUCED, log entry 42. -/
def Cx.snArmed (cx : Cx) : Bool := cx.flg Reg.CH_ACT_STATUS F.CH_ACT_STATUS_SN_ARMED

/-- A serial-number allocation ID of the mode (R149, R176). (DEDUCED, log entry 42) -/
def snAlloc (mode id : Nat) : Bool := if mode = DsMode.ext100 then id == 0x3FFF else Config.snAlloc mode id

/-- Checks 2 to 4 of R181: the grant of a structure, if it is one. -/
def Cx.grantOf (cx : Cx) (mode : Nat) (a : Alloc) : Cx × Option Grant :=
  let slot := cx.slotOfAlloc a.id
  if mode = DsMode.ext100 ∧ 0x3FF0 ≤ a.id ∧ a.id ≤ 0x3FFE then (cx, none)
  else if slot = none ∧ (cx.snArmed && snAlloc mode a.id) = false then (cx, none)
  else if frameUnits mode < a.start + a.size then (cx.inc Cnt.CH_CNT_US_GRANT_RANGE, none)
  else if cx.flg (Reg.CH_US_PROFILE a.profile) F.CH_US_PROFILE_VALID = false then
    (cx.inc Cnt.CH_CNT_US_BAD_PROFILE, none)
  else (cx, some ⟨slot, a.report, a.msg, a.profile, a.start, a.size, cx.grantCap a.profile (a.size * unitBytes mode),
    false, a.id⟩)

/-- The grants of a map in order, each with its place, and whether one asks for a wake (R475). -/
def Cx.grants (cx : Cx) (mode : Nat) : List MapEntry → Nat → Cx × List (Nat × Grant) × Bool
  | [], _ => (cx, [], false)
  | e :: es, i =>
    match cx.readAlloc mode e with
    | (cx, none) => cx.grants mode es (i + 1)
    | (cx, some a) =>
      match cx.grantOf mode a with
      | (cx, none) => cx.grants mode es (i + 1)
      | (cx, some g) =>
        let r := cx.grants mode es (i + 1)
        (r.1, (i, g) :: r.2.1, r.2.2 || (a.fwi && g.slot.isSome))

/-- Form bursts from the grants of a map (R183). -/
def formBursts : List (Nat × Grant) → List (List (Nat × Grant))
  | [] => []
  | g :: gs =>
    match formBursts gs with
    | (h :: hs) :: bs =>
      if g.2.profile = h.2.profile ∧ h.2.start = g.2.start + g.2.size then (g :: h :: hs) :: bs
      else [g] :: (h :: hs) :: bs
    | bs => [g] :: bs

/-- A grant holds its share of the burst with 16 B left (R188). -/
def grantFits (item : Nat) (acquire first last : Bool) (g : Grant) : Bool :=
  let need := 16 + (if first then item + (if g.msg then 48 else 0) else 0) +
    (if g.report && !acquire then item else 0) + (if last then item else 0)
  decide (need ≤ g.cap)

/-- The grants of one burst that hold their shares. (DEDUCED, log entry 45) -/
def keepGrants (item : Nat) (acquire : Bool) : Bool → List (Nat × Grant) → List (Nat × Grant)
  | _, [] => []
  | first, g :: gs =>
    if grantFits item acquire first gs.isEmpty g.2 then g :: keepGrants item acquire false gs
    else keepGrants item acquire false gs

/-- Remove grants that are not served and form the bursts again until every grant holds its share (R188).
(DEDUCED, log entry 45) -/
def serveGrants (item : Nat) (acquire : Bool) : Nat → List (Nat × Grant) → List (List (Nat × Grant))
  | 0, _ => []
  | n + 1, gs =>
    let bs := formBursts gs
    let keep := bs.flatMap (keepGrants item acquire true)
    if keep.length = gs.length then bs else serveGrants item acquire n keep

/-- A burst with its place in the map and the window in which the guard permits it (R149, R184, R206). -/
structure Planned where
  idx    : Nat
  burst  : Burst
  window : Window
  deriving DecidableEq, Repr

/-- Start of the upstream frame at the medium (R182), for a line frame marked at `mark` (R413). -/
def Cx.tUp (cx : Cx) (mark : Nat) : Int :=
  (mark * 128000 : Nat) + cx.fixedQ Reg.CH_TS_DS_FIXED +
    (cx.fld Reg.CH_US_RSP F.CH_US_RSP_RSP_NS * nsQ + cx.ch.us.eqd * cx.bitQ : Nat)

/-- The burst that grants form, with its window (R182). The guard's window ends `extra` later: DELAY_MAX for a
serial-number burst, whose own times are those without its random delay (R149). (DEDUCED, log entry 42) -/
def Cx.plan (cx : Cx) (mode : Nat) (lf : LineFrame) (sn : Bool) (extra : Int) (gs : List (Nat × Grant)) :
    Option Planned :=
  match gs with
  | [] => none
  | (i, g) :: _ =>
    let u : Nat := unitBytes mode * 8 * cx.bitQ
    let last := ((gs.getLast?).map Prod.snd).getD g
    let s0 := cx.tUp lf.mark + (g.start * u : Nat)
    let e0 := cx.tUp lf.mark + ((last.start + last.size) * u : Nat)
    let psb : Nat := cx.fld (Reg.CH_US_PROFILE g.profile) F.CH_US_PROFILE_PSB_LEN * 8 * cx.bitQ
    let on : Nat := cx.fld Reg.CH_US_LASER F.CH_US_LASER_ON_NS * nsQ
    let off : Nat := cx.fld Reg.CH_US_LASER F.CH_US_LASER_OFF_NS * nsQ
    some
      { idx := i
        burst :=
          { grants := gs.map Prod.snd, sfc := lf.sfc, sn := sn, msg := !sn && g.msg, profile := g.profile,
            sMed := s0, sIf := s0 - cx.fixedQ Reg.CH_TS_US_FIXED, wOn := s0 - psb - on, wOff := e0 + off,
            built := .none, done := [], started := false, on := false, off := false }
        window := ⟨s0 - psb - on, e0 + off + extra, g.alloc⟩ }

/-- A burst delayed by a time. -/
def Burst.shift (b : Burst) (d : Int) : Burst :=
  { b with sMed := b.sMed + d, sIf := b.sIf + d, wOn := b.wOn + d, wOff := b.wOff + d }

/-- The random delay of a serial-number response in units of u, drawn afresh (R150). (DEDUCED, log entry 42) -/
def Cx.drawDelay (cx : Cx) (mode : Nat) : Cx × Nat :=
  let u := unitBytes mode * 8 * cx.bitQ
  let top := if u = 0 then 0 else cx.ch.us.delayMax * nsQ / u
  let zero (_ : Nat) : Nat := 0
  let n := Sparse.get zero cx.hl.draws cx.id.val
  (cx.onHl fun h => { h with draws := Sparse.set zero h.draws cx.id.val (n + 1) },
    Config.draw (Config.noise cx.hl.mb.boots) cx.id.val n % (top + 1))

/-- The window overlaps that of a burst whose first structure comes earlier (R184).
(DEDUCED, log entries 42 and 45) -/
def overlapped (all : List Planned) (p : Planned) : Bool :=
  all.any fun q => decide (q.idx < p.idx) && decide (q.window.start < p.window.stop) &&
    decide (p.window.start < q.window.stop)

/-- Put a burst into the list in line-time order. -/
def insertBurst (b : Burst) : List Burst → List Burst
  | [] => [b]
  | x :: l => if b.sIf < x.sIf then b :: x :: l else x :: insertBurst b l

/-- H of R198, with the latched LEAD_US limited by R200. -/
def Cx.horizon (cx : Cx) (mode : Nat) : Nat :=
  (max 4 (min (leadMax mode) cx.ch.us.lead) * 1000 + 250) * nsQ

/-- Serve a burst unless it comes too late (R201). One that comes too late counts its lateness alone, not its short
lead. (DEDUCED, log entry 46; DESIGN CHOICE, log entry 126) -/
def Cx.serveBurst (cx : Cx) (mode : Nat) (b : Burst) : Cx :=
  if b.sIf < cx.nowQ + (2000 * nsQ : Nat) then cx.inc Cnt.CH_CNT_US_GRANT_LATE
  else
    let cx := cx.when (decide (b.sIf < cx.nowQ + cx.horizon mode)) fun cx => cx.inc Cnt.CH_CNT_US_SHORT_LEAD
    ({ cx with ch := { cx.ch with us := { cx.ch.us with bursts := insertBurst b cx.ch.us.bursts } } } : Cx).add
      Cnt.CH_CNT_US_GRANTS b.grants.length

/-- The bursts of a map's grants, the serial-number burst last (R149, R151, R183, R188). Of the serial-number grants
only the first can be answered, also when it is too small. (DESIGN CHOICE, log entry 127) -/
def Cx.planMap (cx : Cx) (mode : Nat) (lf : LineFrame) (own sns : List (Nat × Grant)) : List Planned :=
  let item := itemBytes mode
  let extra : Int := (cx.ch.us.delayMax * nsQ : Nat)
  (serveGrants item (cx.mode == ModeCode.acquire) (own.length + 1) own).filterMap (cx.plan mode lf false 0) ++
    (cx.plan mode lf true extra ((sns.take 1).filter fun g => decide (2 * item + 48 ≤ g.2.cap))).toList

/-- The widening of the guard's window: SLACK line island cycles of 3.2 ns (R206). -/
def Cx.slackQ (cx : Cx) : Int := (cx.fld Reg.CH_US_GUARD F.CH_US_GUARD_SLACK * 3276800 : Nat)

/-- The window that opened last (R62). -/
def Cx.lastWindow (cx : Cx) : Option Window :=
  (cx.ch.us.windows.filter fun w => decide (w.start - cx.slackQ ≤ cx.nowQ)).foldl
    (fun m w => match m with
      | some v => if v.start ≤ w.start then some w else m
      | none => some w) none

/-- The guard takes the windows of a map in, whether or not the builder serves their bursts (R206). Windows that are
over leave, but for the last. -/
def Cx.guardWindows (cx : Cx) (ws : List Window) : Cx :=
  let last := cx.lastWindow
  let keep := cx.ch.us.windows.filter fun w => decide (cx.nowQ < w.stop + cx.slackQ) || some w == last
  { cx with ch := { cx.ch with us := { cx.ch.us with windows := keep ++ ws } } }

/-- The burst of a plan is served; a serial-number burst with its random delay (R149, R150). -/
def Cx.servePlan (cx : Cx) (mode : Nat) (p : Planned) : Cx :=
  if p.burst.sn then
    let r := cx.drawDelay mode
    r.1.serveBurst mode (p.burst.shift ((r.2 * (unitBytes mode * 8 * cx.bitQ) : Nat)))
  else cx.serveBurst mode p.burst

/-- Place and form the bursts of a map; serve them when `serve` (R149 to R151, R182 to R188, R201). The guard computes
their windows in any case (R206). A serial-number grant beside the first counts as skipped, also where the first is too
small to be answered. (DEDUCED, log entry 45; DESIGN CHOICE, log entry 127) -/
def Cx.serveMap (cx : Cx) (mode : Nat) (lf : LineFrame) (serve : Bool) (gs : List (Nat × Grant)) : Cx :=
  let own := gs.filter fun g => g.2.slot.isSome
  let sns := gs.filter fun g => g.2.slot.isNone
  let ps := cx.planMap mode lf own sns
  let ok := ps.filter fun p => !overlapped ps p
  let cx := cx.guardWindows (ok.map Planned.window)
  if serve = false then cx
  else
    let sn (l : List Planned) : Nat := (l.filter fun p => p.burst.sn).length
    let cx := cx.add Cnt.CH_CNT_US_GRANT_SMALL (own.length + (sns.take 1).length -
      (ps.map fun p => p.burst.grants.length).sum)
    let cx := cx.add Cnt.CH_CNT_US_GRANT_OVERLAP ((ps.length - sn ps) - (ok.length - sn ok))
    let cx := cx.add Cnt.CH_CNT_ACT_SN_SKIPPED (sns.length - 1 + (sn ps - sn ok))
    ok.foldl (fun cx p => cx.servePlan mode p) cx

/-- A map whose grants meet the fast re-entry conditions accepts it (R166): the first such grant is marked.
(DEDUCED, log entry 47) -/
def Cx.acceptGrant (cx : Cx) (gs : List (Nat × Grant)) : Cx × List (Nat × Grant) :=
  let inTime : Bool := match cx.ch.act.count with
    | some n => decide (1 ≤ n) && decide (n ≤ cx.ch.act.wait)
    | none => false
  if cx.actState = Act.fastReentry ∧ inTime ∧ cx.ch.act.grant = false then
    match gs.find? fun g => g.2.slot.isSome with
    | some g => (cx.setActAux { cx.ch.act with grant := true },
        gs.map fun x => if x.1 = g.1 then (x.1, { x.2 with acc := true }) else x)
    | none => (cx, gs)
  else (cx, gs)

/-- BWMAP_ACCEPT: the map of an accepted line frame (R181). Answers whether a grant with FWI is among them.
While the scheduler is stopped, or with the pads held, the grants are missed (R486). -/
def Cx.acceptMap (cx : Cx) (lf : LineFrame) (map : List MapEntry) : Cx × Bool :=
  let mode := lf.mode
  let r := cx.grants mode map 0
  let cx := r.1
  let gs := r.2.1
  let own := (gs.filter fun g => g.2.slot.isSome).length
  if cx.ch.coreStopped || cx.phase != Phase.run then
    ((cx.serveMap mode lf false gs).add Cnt.CH_CNT_PWR_GRANTS_MISSED own, r.2.2 && cx.ch.pwr.watch)
  else if cx.running = false then (cx, false)
  else
    let a := cx.acceptGrant gs
    let held := a.1.flg Reg.CH_PWR_STATUS F.CH_PWR_STATUS_PAD_HELD
    let cx := a.1.when held fun cx => cx.add Cnt.CH_CNT_PWR_GRANTS_MISSED own
    (cx.serveMap mode lf (!held && cx.actState != Act.emergencyStop && !cx.ch.disabling) a.2, false)

/-! ### Frame selection (R194 to R197, R209, R213, R456) -/

/-- Envelope length of a payload (R99 to R101). -/
def envLen (mode : Nat) (enc : Bool) (n : Nat) : Nat :=
  8 + (if mode = DsMode.ext100 ∧ enc = true then 8 else 0) + n + padLen mode n

def TxFrame.rem (f : TxFrame) : Nat := f.frame.len - f.sent
def TxFrame.env (f : TxFrame) (mode : Nat) : Nat := envLen mode (f.key != 0) f.rem

def Cx.txPrio (cx : Cx) (q : Nat) : Nat := cx.fld (Reg.CH_TXQ_CTL q) F.CH_TXQ_CTL_PRIO
def Cx.txWeight (cx : Cx) (q : Nat) : Nat := max 1 (min 64 (cx.fld (Reg.CH_TXQ_CTL q) F.CH_TXQ_CTL_WEIGHT))

/-- A queue is paused (R213). -/
def Cx.txPaused (cx : Cx) (q : Nat) : Bool :=
  cx.flg Reg.CH_US_PAUSE_STATUS (pauseField 0) || cx.flg Reg.CH_US_PAUSE_STATUS (pauseField (1 + cx.txPrio q))

/-- The gate of a queue is open (R456). -/
def Cx.gateOpen (cx : Cx) (q : Nat) : Bool :=
  !cx.flg (Reg.CH_DRILL_GATE (q / 32)) ⟨q % 32, 1⟩

def Cx.txHead (cx : Cx) (q : Nat) : Option TxFrame := (cx.txq q).frames.head?

/-- A launch time is not after the medium time `t` (R209). -/
def launchOk (l : Option Word) (t : Int) : Bool :=
  match l with
  | none => true
  | some w =>
    let d := (w - BitVec.ofNat 32 (wrapInt 32 (t / nsQ))).toNat
    d == 0 || decide (2 ^ 31 ≤ d)

/-- The head of a queue is eligible at a position of medium time `t` (R196). -/
def Cx.eligible (cx : Cx) (q : Nat) (t : Int) : Bool :=
  match cx.txHead q with
  | none => false
  | some f => f.sent == 0 && !cx.txPaused q && cx.gateOpen q && launchOk f.launch t

/-- The queue with the partly sent frame of an allocation (R190). -/
def Cx.partQueue (cx : Cx) (slot : Nat) : Option Nat :=
  (List.range 256).find? fun q =>
    cx.fld (Reg.CH_TXQ_MAP q) F.CH_TXQ_MAP_SLOT == slot &&
      (match cx.txHead q with
       | some f => decide (0 < f.sent)
       | none => false)

def Cx.deficit (cx : Cx) (q : Nat) : Nat := Sparse.get (fun _ => 0) cx.ch.us.deficit q
def Cx.setDeficit (cx : Cx) (q n : Nat) : Cx :=
  { cx with ch := { cx.ch with us := { cx.ch.us with deficit := Sparse.set (fun _ => 0) cx.ch.us.deficit q n } } }
def Cx.setCur (cx : Cx) (s q : Nat) : Cx :=
  { cx with ch := { cx.ch with us := { cx.ch.us with curq := Sparse.set (fun _ => none) cx.ch.us.curq s (some q) } } }

/-- Strict priority (R197). -/
def Cx.strictBest (cx : Cx) (t : Int) : List Nat → Option Nat → Option Nat
  | [], b => b
  | q :: qs, b =>
    let better := cx.eligible q t && (match b with
      | none => true
      | some b => decide (cx.txPrio b < cx.txPrio q))
    cx.strictBest t qs (if better then some q else b)

/-- Next member after `q` in ascending order, wrapping. -/
def nextMember (ms : List Nat) (q : Nat) : Nat :=
  match ms.find? fun m => decide (q < m) with
  | some m => m
  | none => ms.headD q

/-- The DWRR selection of R197. -/
def Cx.dwrr (cx : Cx) (mode slot : Nat) (ms : List Nat) (t : Int) : Nat → Nat → Cx × Option Nat
  | 0, _ => (cx, none)
  | n + 1, q =>
    let env := match cx.txHead q with
      | some f => f.env mode
      | none => 0
    if cx.eligible q t && decide (env ≤ cx.deficit q) then
      ((cx.setDeficit q (cx.deficit q - env)).setCur slot q, some q)
    else
      let cx := cx.when (cx.txHead q).isNone fun cx => cx.setDeficit q 0
      let q := nextMember ms q
      let cx := cx.when (cx.eligible q t) fun cx => cx.setDeficit q (cx.deficit q + cx.txWeight q * 256)
      (cx.setCur slot q).dwrr mode slot ms t n q

/-- SCHED of a slot; a change clears its members' deficits (R195). -/
def Cx.slotSched (cx : Cx) (slot : Nat) (ms : List Nat) : Cx × Bool :=
  let b := cx.fld (Reg.CH_US_SLOT slot) F.CH_US_SLOT_SCHED
  let was := Sparse.get (fun _ => 0) cx.ch.us.sched slot
  let cx : Cx := { cx with ch := { cx.ch with us := { cx.ch.us with
    sched := Sparse.set (fun _ => 0) cx.ch.us.sched slot b } } }
  (if b = was then cx else ms.foldl (fun cx q => cx.setDeficit q 0) cx, b == 1)

/-- Select the next frame's queue for a slot; says also whether DWRR charged it (R197). cur(s) is the lowest member at
first, and the next member after it where it is a member no longer. (DESIGN CHOICE, log entry 128) -/
def Cx.select (cx : Cx) (mode slot : Nat) (t : Int) : Cx × Option (Nat × Bool) :=
  match cx.partQueue slot with
  | some q => (cx, some (q, false))
  | none =>
    let ms := cx.slotMembers slot
    match cx.slotSched slot ms with
    | (cx, false) => (cx, (cx.strictBest t ms none).map fun q => (q, false))
    | (cx, true) =>
      let c := (Sparse.get (fun _ => none) cx.ch.us.curq slot).getD (ms.headD 0)
      let c := if ms.contains c then c else nextMember ms c
      let r := cx.dwrr mode slot ms t (if ms.isEmpty then 0 else 512) c
      (r.1, r.2.map fun q => (q, true))

/-! ### Burst content (R186 to R192) -/

/-- A burst in the building: the state, how far it is built, cipher returns still to come, and frames whose
last envelope is staged. -/
structure Bld where
  cx    : Cx
  built : Built
  rets  : List CipherRet
  done  : List Flying
  deriving DecidableEq, Repr

def Bld.out (b : Bld) : List Byte := b.built.out
def Bld.put (b : Bld) (bs : List Byte) : Bld := { b with built := { b.built with out := b.built.out ++ bs } }
def Bld.goto (b : Bld) (p : BurstPos) : Bld := { b with built := { b.built with pos := p } }
def Bld.onCx (b : Bld) (f : Cx → Cx) : Bld := { b with cx := f b.cx }

/-- An envelope header (R99). -/
def envHeader (pli key port : Nat) (lf : Bool) : List Byte :=
  let v := pli % 2 ^ 14 * 2 ^ 37 + key % 4 * 2 ^ 35 + port % 2 ^ 16 * 2 ^ 19 + b2n lf
  beBytes 8 (v * 2 ^ 13 + (Config.hec (BitVec.ofNat 51 v)).toNat)

/-- The largest payload, up to `n`, whose padded length fits in `space`. -/
def maxFit (mode space : Nat) : Nat → Nat
  | 0 => 0
  | n + 1 => if n + 1 + padLen mode (n + 1) ≤ space then n + 1 else maxFit mode space n

/-- The largest PLI whose envelope, after `head` bytes, fits in `space` (R190, R191). -/
def maxPli (mode head space : Nat) : Nat :=
  let s := space - head
  if mode = DsMode.g9807 then min 16383 (s / 4 * 4)
  else if mode = DsMode.ext100 then min 16383 (s / 8 * 8)
  else maxFit mode s (min 16383 s)

/-- The least number of bytes that an idle envelope of a PLI up to `p` leaves of `space`. -/
def leastLeft (mode space : Nat) : Nat → Nat
  | 0 => space - envLen mode false 0
  | p + 1 =>
    let e := envLen mode false (p + 1)
    if e ≤ space then min (space - e) (leastLeft mode space p) else leastLeft mode space p

/-- The remainder of a space that no idle envelope can fill, of the G.9804 modes (R191). A long space is judged without
an idle envelope of 8,184 payload bytes, of which it has room for more than one. -/
def idleRem (mode space : Nat) : Nat :=
  let s := if 16391 < space then space - envLen mode false 8184 else space
  leastLeft mode s (min 16383 (s - 8))

/-- The largest PLI, up to `p`, of an idle envelope whose `space` bytes it fills, or leaves 8 bytes or more of for the
next, or of which it leaves only the remainder `r` (R191). -/
def idleFit (mode space r : Nat) : Nat → Option Nat
  | 0 =>
    let e := envLen mode false 0
    if e = space ∨ e + 8 ≤ space ∨ e + r = space then some 0 else none
  | p + 1 =>
    let e := envLen mode false (p + 1)
    if e = space ∨ e + 8 ≤ space ∨ e + r = space then some (p + 1) else idleFit mode space r p

/-- PLI of the next idle envelope in `space` bytes (R191). (DEDUCED, log entry 48) -/
def idlePli (mode space : Nat) : Nat :=
  let p := maxPli mode 8 space
  let left := space - envLen mode false p
  if mode = DsMode.g9807 then (if p = 16383 ∧ 4 ≤ left ∧ left < 8 then 16380 else p)
  else if mode = DsMode.ext100 then p
  else (idleFit mode space (idleRem mode space) (min 16383 (space - 8))).getD p

/-- The next idle envelope of a space of `n` bytes, or a remainder shorter than a header (R191). -/
def idleEnv (mode n : Nat) : List Byte :=
  if n < 8 then List.replicate n 0
  else
    let p := idlePli mode n
    envHeader p 0 0xFFFF (Config.idleLf p) ++ List.replicate (p + padLen mode p) 0

/-- Idle envelopes, and a remainder, that fill a space (R191). (DEDUCED, log entry 48) -/
def idleFill (mode : Nat) : Nat → Nat → List Byte
  | 0, n => List.replicate n 0
  | k + 1, n => if n = 0 then [] else idleEnv mode n ++ idleFill mode k (n - (idleEnv mode n).length)

/-- The next idle envelope of grant `k`, whose content ends at `stop`. The bytes of the envelope, header and padding too,
and those of a remainder count as idle bytes. (DESIGN CHOICE, log entry 129) -/
def Bld.idle (b : Bld) (mode stop k : Nat) : Bld :=
  let at_ := b.out.length
  if stop ≤ at_ then b.goto (.report (k + 1))
  else
    let e := idleEnv mode (stop - at_)
    let b := { b with built := { b.built with idle := b.built.idle ++ [(at_, at_ + e.length)] } }
    (b.put e).onCx fun cx => cx.add Cnt.CH_CNT_US_IDLE_BYTES e.length

/-- The header of a burst (R187); a serial-number burst's carries the unassigned terminal ID (R149). -/
def Cx.burstHeader (cx : Cx) (mode : Nat) (msg sn : Bool) : List Byte :=
  let tid := if cx.idValid && !sn then cx.terminalId else 0x3FF
  if mode = DsMode.ext100 then
    let h := beBytes 6 ((tid * 2 + b2n msg) * 2 ^ 37)
    h ++ beBytes 2 (crc16 h)
  else beBytes 4 (Config.stdItem 0 mode (tid * 2 + b2n msg)).toNat

/-- The occupancy of an allocation in bytes (R192). -/
def Cx.occupancy (cx : Cx) (mode slot : Nat) : Nat :=
  let qs := (List.range 256).filter fun q =>
    cx.fld (Reg.CH_TXQ_MAP q) F.CH_TXQ_MAP_SLOT == slot && !cx.txPaused q &&
      (cx.qEn true q || !(cx.txq q).frames.isEmpty)
  (qs.map fun q => ((cx.txq q).frames.map fun f => f.env mode).sum).sum

/-- A report (R187, R192). -/
def reportItem (mode occ : Nat) : List Byte :=
  if mode = DsMode.ext100 then
    let h := beBytes 6 (min (2 ^ 32 - 1) ((occ + 7) / 8) * 2 ^ 16)
    h ++ beBytes 2 (crc16 h)
  else beBytes 4 (Config.stdItem 1 mode (min (2 ^ 24 - 1) ((occ + 3) / 4))).toNat

/-- The trailer over the burst so far (R187). -/
def trailerItem (mode : Nat) (body : List Byte) : List Byte :=
  if mode = DsMode.ext100 then beBytes 4 (crc32 body) ++ beBytes 4 0
  else beBytes 4 (Config.stdItem 2 mode (beNat body)).toNat

/-- Take the oldest upstream message, or the idle message (R158). -/
def Bld.message (b : Bld) (mode : Nat) : Bld :=
  let q := b.cx.hl.mq[b.cx.id]
  match q.up with
  | m :: l =>
    (b.onCx fun cx => cx.onHl fun h => { h with mq := h.mq.set cx.id { q with up := l } }).put
      ((m ++ List.replicate 48 0).take 48)
  | [] => b.put (b.cx.idleMessage mode)

/-- Complement the FCS where it lies in bytes `from_` on of a frame of `len` bytes (R204, R605). -/
def complementFcs (len : Nat) : Nat → List Byte → List Byte
  | _, [] => []
  | k, b :: bs => (if len ≤ k + 4 then ~~~b else b) :: complementFcs len (k + 1) bs

/-- The frame leaves its queue. -/
def Cx.txPop (cx : Cx) (q : Nat) : Cx :=
  cx.setTxq q { cx.txq q with frames := (cx.txq q).frames.tail }

/-- The header item of an upstream envelope whose payload begins at byte `at_` of its burst (R189, R602). -/
def usHeader (bu : Burst) (mode at_ len : Nat) (f : TxFrame) : BitVec 512 :=
  let start := ((bu.grants.head?).map Grant.start).getD 0
  if mode = DsMode.ext100 then cpHeader f.keySet f.key true mode len 0 0
  else cpHeader f.keySet f.key true mode len ((Config.usFrame mode bu.sfc).zeroExtend 64)
    (Config.usOffset mode start at_)

/-- Encrypt the payload of an envelope of a frame: its request passes, and what the engine returns is counted (R602 to
R605). -/
def Bld.encrypt (b : Bld) (req : BitVec 512) (plain : List Byte) : Bld × List Byte × DWord × Bool :=
  let r := b.rets.headD ⟨[], 0, false, 0⟩
  let bs := (r.payload ++ (List.range plain.length).map Config.freeByte).take plain.length
  let cx := (b.cx.cpSend req).when r.err fun cx => cx.inc Cnt.CH_CNT_CP_ENGINE_ERR
  let cx := cx.add Cnt.CH_CNT_CP_LATE r.late
  let cx := cx.when (r.late != 0) fun cx => cx.setf Reg.CH_PORT_STATUS F.CH_PORT_STATUS_CP_LATE 1
  ({ b with cx := cx, rets := b.rets.tail }, bs, r.seed, r.err)

/-- Place an envelope of the head frame of a queue; `n` payload bytes (R189, R190, R202, R204, R215). -/
def Bld.place (b : Bld) (bu : Burst) (mode q n : Nat) (f : TxFrame) : Bld :=
  let enc := f.key != 0
  let head := 8 + (if mode = DsMode.ext100 ∧ enc = true then 8 else 0)
  let last := n == f.rem
  let ts := match f.tsent with
    | some t => t
    | none => BitVec.ofNat 64 (wrapInt 64 ((b.cx.medTime bu (b.out.length + head) + 64000) / 128000))
  let raw := ((b.cx.frameBytes f.frame.cell f.frame.len).drop f.sent).take n
  let plain := if f.bad then complementFcs f.frame.len f.sent raw else raw
  let r : Bld × List Byte × DWord × Bool :=
    if enc && n != 0 then b.encrypt (usHeader bu mode (b.out.length + head) n f) plain else (b, plain, 0, false)
  let data := if r.2.2.2 && !f.bad then complementFcs f.frame.len f.sent r.2.1 else r.2.1
  let port := f.ovrPort.getD f.frame.port
  let b := r.1.put (envHeader n f.key port last ++ (if head = 16 then beBytes 8 r.2.2.1.toNat else []) ++ data)
  let stop := b.out.length
  let b := b.put (List.replicate (padLen mode n) 0)
  if last then
    let cx := (b.cx.txPop q).releaseFrame f.frame
    { b with
      cx := cx
      done := b.done ++ [⟨f.src, f.frame.len, f.frame.ftype, f.cellErr, ts, stop⟩] }
  else
    let f := { f with sent := f.sent + n, tsent := some ts, bad := f.bad || r.2.2.2 }
    b.onCx fun cx =>
      (cx.setTxq q { cx.txq q with frames := f :: (cx.txq q).frames.tail }).inc Cnt.CH_CNT_US_FRAGMENTS

/-- Take in the ECC error of the `n` bytes of a frame that an envelope takes: each such error is counted (R204, R335). -/
def Cx.selectEcc (cx : Cx) (ecc : EccFault) (f : TxFrame) (n : Nat) : Cx × TxFrame :=
  match cx.eccCells ecc f.frame.cell f.sent (f.sent + n) with
  | (cx, true) => (cx.inc Cnt.CH_CNT_US_CELL_ECC, { f with bad := true, cellErr := true })
  | (cx, false) => (cx, f)

/-- The next position of the envelopes of grant `k`, which end at `stop` (R189 to R191, R197). Where no frame is selected,
idle fill takes the rest of the grant. -/
def Bld.fillStep (b : Bld) (bu : Burst) (mode slot stop k : Nat) (ecc : EccFault) : Bld :=
  let space := stop - b.out.length
  let rest (b : Bld) : Bld := b.goto (.idle k)
  if space < 16 then rest b
  else match b.cx.select mode slot (b.cx.medTime bu b.out.length) with
    | (cx, none) => rest { b with cx := cx }
    | (cx, some (q, charged)) =>
      match cx.txHead q with
      | none => rest { b with cx := cx }
      | some f =>
        let head := 8 + (if mode = DsMode.ext100 ∧ f.key ≠ 0 then 8 else 0)
        let chk := if f.sent = 0 then cx.checkChain f.frame.cell else (cx, .whole)
        let cx := chk.1
        if chk.2 = .stopped then rest { b with cx := cx }
        else if chk.2 = .lost then
          { b with cx := ((cx.txPop q).releaseFrame f.frame).txCompleteOpt f.src CplStatus.notSent f.frame.ftype none }
        else if f.env mode ≤ space then
          let r := cx.selectEcc ecc f f.rem
          ({ b with cx := r.1 } : Bld).place bu mode q f.rem r.2
        else if head + 8 ≤ space then
          let n := maxPli mode head space
          let r := cx.selectEcc ecc f n
          rest (({ b with cx := r.1 } : Bld).place bu mode q n r.2)
        else rest { b with cx := cx.when charged fun cx => cx.setDeficit q (cx.deficit q + f.env mode) }

/-- Frames in the queues of a channel: a bound on the frames placed in one burst. -/
def Cx.txCount (cx : Cx) : Nat := (cx.ch.rings.txq.map fun e => e.2.frames.length).sum

/-- The end of a grant's share of the content: the trailer comes after the last (R186). -/
def Burst.grantStop (bu : Burst) (mode k : Nat) : Nat :=
  ((bu.grants.take (k + 1)).map Grant.cap).sum - (if k + 1 = bu.grants.length then itemBytes mode else 0)

/-- The builder selects no queue for a burst and sends no report: outside Service (R143), in a burst that accepts fast
re-entry (R166), in an orderly disable (R61), and once the rest of the burst is replaced (R204). -/
def Bld.quiet (b : Bld) (bu : Burst) : Bool :=
  b.cx.mode != ModeCode.service || bu.grants.any Grant.acc || b.cx.ch.disabling ||
    b.built.cut.any fun i => decide (i ≤ b.out.length)

/-- Build what stands next in a burst (R149, R186, R187). -/
def Bld.item (b : Bld) (bu : Burst) (mode : Nat) (ecc : EccFault) : Bld :=
  match b.built.pos with
  | .header =>
    (b.put (b.cx.burstHeader mode (bu.msg || bu.sn) bu.sn)).goto (if bu.msg || bu.sn then .message else .report 0)
  | .message =>
    (if bu.sn then b.put ((b.cx.hl.mq[b.cx.id].template ++ List.replicate 48 0).take 48)
      else b.message mode).goto (.report 0)
  | .report k =>
    match bu.grants[k]? with
    | none => b.goto .trailer
    | some g =>
      match g.slot with
      | some slot =>
        if g.report && !b.quiet bu then
          ((b.put (reportItem mode (b.cx.occupancy mode slot))).onCx fun cx => cx.inc Cnt.CH_CNT_US_REPORTS).goto (.body k)
        else b.goto (.body k)
      | none => b.goto (.body k)
  | .body k =>
    match (bu.grants[k]?).bind Grant.slot with
    | some slot =>
      if b.quiet bu then b.goto (.idle k) else b.fillStep bu mode slot (bu.grantStop mode k) k ecc
    | none => b.goto (.idle k)
  | .idle k => b.idle mode (bu.grantStop mode k) k
  | .trailer => (b.put (trailerItem mode b.out)).goto .ended
  | .ended => b

/-- The next position of a burst is due: its content leaves the framer interface at most H from now (R198).
(DESIGN CHOICE, log entry 138) -/
def Bld.due (b : Bld) (bu : Burst) (mode : Nat) : Bool :=
  b.built.pos != .ended &&
    decide (bu.sIf + (b.cx.medByte bu.profile b.out.length * 8 * b.cx.bitQ : Nat) ≤ b.cx.nowQ + b.cx.horizon mode)

/-- Build the positions of a burst that are due, in order (R198). (DESIGN CHOICE, log entry 138) -/
def Bld.run (b : Bld) (bu : Burst) (mode : Nat) (ecc : EccFault) : Nat → Bld
  | 0 => b
  | n + 1 => if b.due bu mode then (b.item bu mode ecc).run bu mode ecc n else b

/-- The content of a burst as far as it is due, from where it stands (R149, R186, R198). Each position goes on to the
next, takes a frame from a queue or places an idle envelope, so their number is bounded. -/
def Cx.buildBurst (cx : Cx) (bu : Burst) (rets : List CipherRet) (ecc : EccFault) : Bld :=
  let b : Bld := ⟨cx, bu.built, rets, bu.done⟩
  b.run bu cx.dsMode ecc (4 * bu.grants.length + cx.txCount + (bu.grants.map Grant.cap).sum / 8 + 4)

/-- Bytes are written into the staging buffer (R199). -/
def Cx.stage (cx : Cx) (bs : List Byte) : Cx :=
  let n := cx.ch.us.staged
  { cx with ch := { cx.ch with
      stg := (List.zipIdx bs n).foldl (fun m e => Sparse.set zeroByte m (Config.stageAddr e.2 % 262144) e.1) cx.ch.stg
      us := { cx.ch.us with staged := n + bs.length } } }

/-- Replace the first burst for which `p` holds. -/
def mapFirst (p : Burst → Bool) (f : Burst → Burst) : List Burst → List Burst
  | [] => []
  | b :: l => if p b then f b :: l else b :: mapFirst p f l

def Cx.setBursts (cx : Cx) (l : List Burst) : Cx :=
  { cx with ch := { cx.ch with us := { cx.ch.us with bursts := l } } }

/-- Its first content is built. -/
def Burst.begun (b : Burst) : Bool := !b.built.out.isEmpty

/-- More of its content is to be built. -/
def Burst.open_ (b : Burst) : Bool := b.built.pos != .ended && !b.off

/-- Bytes from `a` up to `b` that lie in none of the ranges. (DESIGN CHOICE, log entry 130) -/
def notIn (l : List (Nat × Nat)) (a b : Nat) : Nat :=
  (b - a) - (l.map fun r => min b r.2 - max a r.1).sum

/-- From a position on, the content up to the trailer becomes idle fill, that which is still to be built too (R204,
R605). Frames that end in it are not sent. The replaced bytes count as idle bytes, those counted before once. A trailer
already built is kept as it is, with its CRC-32 over the content that was built.
(DEDUCED, log entry 49; DESIGN CHOICE, log entry 130) -/
def Cx.replaceRest (cx : Cx) (bu : Burst) (at_ : Nat) : Cx × Burst :=
  let mode := cx.dsMode
  let c := bu.built.out
  let stop := if bu.built.pos = .ended then c.length - itemBytes mode else c.length
  let bu := { bu with built := { bu.built with cut := some at_ } }
  if stop ≤ at_ then (cx, bu)
  else
    let keep := bu.done.filter fun f => decide (f.stop ≤ at_)
    let lost := bu.done.filter fun f => !decide (f.stop ≤ at_)
    let cx := lost.foldl (fun cx f =>
      (cx.inc Cnt.CH_CNT_US_NOT_SENT).txCompleteOpt f.src CplStatus.notSent f.ftype none) cx
    let n := stop - at_
    let cx := cx.add Cnt.CH_CNT_US_IDLE_BYTES (notIn bu.built.idle at_ stop)
    (cx, { bu with
      built := { bu.built with
        out := c.take at_ ++ idleFill mode (n / 8 + 1) n ++ c.drop stop, idle := bu.built.idle ++ [(at_, stop)] }
      done := keep })

/-- BURST_DUE: content of the first burst that is not built whole falls due: every position of it that is due is built
(R198). Content that a staging fault has already replaced becomes idle fill (R204). (DESIGN CHOICE, log entry 138) -/
def Cx.burstDue (cx : Cx) (rets : List CipherRet) (ecc : EccFault) : Cx :=
  match cx.ch.us.bursts.find? Burst.open_ with
  | none => cx
  | some bu =>
    let r := cx.buildBurst bu rets ecc
    let now := { bu with built := r.built, done := r.done }
    let x := match bu.built.cut with
      | some i => r.cx.replaceRest now i
      | none => (r.cx, now)
    let cx := x.1.stage (x.2.built.out.drop bu.built.out.length)
    cx.setBursts (mapFirst Burst.open_ (fun _ => x.2) cx.ch.us.bursts)

def execBurstDue (c : ChanId) (rets : List CipherRet) (ecc : EccFault) (s : State) : Out :=
  s.onChanEcc c ecc fun cx => if cx.running && !cx.subStopped 5 then cx.burstDue rets ecc else cx

/-! ### Sending (R163, R201, R204, R205 to R208, R597, R605) -/

/-- LAST_TX_TICK follows a burst at most once per millisecond (R163). (DEDUCED, log entry 46) -/
def Cx.lastTx (cx : Cx) : Cx :=
  let t := cx.hl.stu.tick.toNat
  if cx.idLe 0x48 8 = 0 ∨ 1000000 ≤ t - cx.idLe 0x48 8 then cx.idPut 0x48 8 t else cx

/-- STAGE_ECC; the second within WINDOW_S makes firmware advise a handover (R204, R527). -/
def Cx.stageEcc (cx : Cx) : Cx :=
  let t := cx.hl.stu.tick
  let again : Bool := match cx.ch.fm.stageEcc with
    | some t0 => decide ((t - t0).toNat ≤ 1000000000 * cx.hl.wearWindow)
    | none => false
  let cx := (cx.inc Cnt.CH_CNT_US_STAGE_ECC).raise Ev.stageEcc 0
  let cx : Cx := { cx with ch := { cx.ch with fm := { cx.ch.fm with stageEcc := some t } } }
  cx.when again fun cx => cx.onHl fun h => h.fallowEvent cx.id.val FallowReason.advise

/-- The fault of a staging read (R204, R605). (DEDUCED, log entry 49) -/
def Cx.stageFault (cx : Cx) (bu : Burst) : StageFault → Cx × Burst
  | .none => (cx, bu)
  | .ecc i => cx.stageEcc.replaceRest bu i
  | .miss i => (cx.inc Cnt.CH_CNT_CP_STAGE_MISS).replaceRest bu i

/-- BURST_START: the SOB word is presented and the burst's words follow. `wait`: it is not taken in its first
cycle. (DEDUCED, log entry 46) -/
def Cx.burstStart (cx : Cx) (wait : Bool) (fault : StageFault) : Cx :=
  let p (b : Burst) : Bool := b.begun && !b.started
  match cx.ch.us.bursts.find? p with
  | none => cx
  | some bu =>
    let cx := cx.when wait fun cx => cx.inc Cnt.CH_CNT_FR_US_SOB_WAIT
    let r := cx.stageFault bu fault
    let cx := (r.1.inc Cnt.CH_CNT_US_BURSTS).lastTx
    let cx := cx.when bu.sn fun cx => cx.inc Cnt.CH_CNT_ACT_SN_SENT
    let cx := cx.when bu.msg fun cx => cx.inc Cnt.CH_CNT_ACT_US_MSG
    cx.setBursts (mapFirst p (fun _ => { r.2 with started := true }) cx.ch.us.bursts)

def execBurstStart (c : ChanId) (wait : Bool) (fault : StageFault) (s : State) : Out :=
  s.onChan c fun cx => if cx.running then cx.burstStart wait fault else cx

/-- The burst guard may open a window (R208). -/
def Cx.guardMayOpen (cx : Cx) : Bool :=
  !cx.modeIn [ModeCode.disabled, ModeCode.stop, ModeCode.halted] && cx.actState != Act.emergencyStop

def Cx.setTxEn (cx : Cx) (b : Bool) : Cx := { cx with ch := { cx.ch with us := { cx.ch.us with txEn := b } } }

/-- The guard's window is open (R206, R208). -/
def Cx.guardOpen (cx : Cx) : Bool :=
  cx.guardMayOpen &&
    cx.ch.us.windows.any fun w => decide (w.start - cx.slackQ ≤ cx.nowQ) && decide (cx.nowQ < w.stop + cx.slackQ)

/-- Allocation ID of the last granted window: of its first grant (R62). -/
def Cx.lastAlloc (cx : Cx) : Nat :=
  match cx.lastWindow with
  | some w => w.alloc
  | none => 0

def Cx.setTrip (cx : Cx) (b : Bool) : Cx := { cx with ch := { cx.ch with us := { cx.ch.us with trip := b } } }

def Cx.setBld (cx : Cx) (b : Bool) : Cx := { cx with ch := { cx.ch with us := { cx.ch.us with bld := b } } }

/-- ROGUE_TRIP (R207). DETAIL holds the allocation ID of the last granted window. The same window lasts until the guard
next has a window open: with HALT_ON_TRIP = 0 a further trip up to then is not counted.
(DESIGN CHOICE, log entry 131) -/
def Cx.rogueTrip (cx : Cx) : Cx :=
  let alloc := cx.lastAlloc
  let halts := cx.flg Reg.CH_US_GUARD F.CH_US_GUARD_HALT_ON_TRIP
  let again := cx.ch.us.trip && !halts
  let cx := ((cx.setTxEn false).setTrip true).setf Reg.CH_US_GUARD F.CH_US_GUARD_TRIPPED 1
  let cx := (cx.when (!again) fun cx => cx.inc Cnt.CH_CNT_US_ROGUE_TRIP).raise Ev.rogueGuard alloc
  if halts then cx.halt Halt.rogueTrip alloc else cx

/-- TX_EN at the pin follows the builder's inside the guard's window (R206). -/
def Cx.pinFollows (cx : Cx) : Cx := (cx.setTrip false).setTxEn cx.ch.us.bld

/-- The builder raises its TX_EN: outside its window the guard trips (R206, R207). -/
def Cx.builderOn (cx : Cx) : Cx :=
  let cx := cx.setBld true
  if cx.guardOpen then cx.pinFollows else cx.rogueTrip

/-- In each cycle the guard compares the builder's TX_EN with its windows: one that stays high behind its window trips it
once, and one that is still high when a window opens shows at the pin again (R206, R207).
(DESIGN CHOICE, log entry 131) -/
def Cx.guardTick (cx : Cx) : Cx :=
  if cx.guardOpen then cx.pinFollows
  else if cx.ch.us.txEn then cx.rogueTrip else cx

/-- TX_EN_ON: the builder raises TX_EN for the next burst that it serves, whether or not content of it is due yet, or,
when `rogue`, without one (R205, R207). -/
def Cx.txEnOn (cx : Cx) (rogue : Bool) : Cx :=
  let p (b : Burst) : Bool := !b.on
  if rogue then cx.builderOn
  else match cx.ch.us.bursts.find? p with
    | none => cx
    | some _ => (cx.setBursts (mapFirst p (fun b => { b with on := true }) cx.ch.us.bursts)).builderOn

/-- In Disabled a TX_EN of the builder is a fault without a halt (R62, R208). -/
def execTxEnOn (c : ChanId) (rogue : Bool) (s : State) : Out :=
  s.onChan c fun cx => if cx.ch.coreStopped || cx.mode == ModeCode.halted then cx else cx.txEnOn rogue

/-- Bursts that are over leave the list. -/
def Cx.sweepBursts (cx : Cx) : Cx :=
  cx.setBursts (cx.ch.us.bursts.filter fun b => !(b.off && b.started && b.done.isEmpty))

/-- Partly sent frames that will not be finished are discarded: each is counted, and its completion is written (R203). -/
def Cx.dropPartly (cx : Cx) : Cx :=
  (List.range 256).foldl (fun cx q =>
    match cx.txHead q with
    | some f =>
      if 0 < f.sent then
        (((cx.txPop q).releaseFrame f.frame).inc Cnt.CH_CNT_US_NOT_SENT).txCompleteOpt f.src CplStatus.notSent
          f.frame.ftype none
      else cx
    | none => cx) cx

/-- TX_EN_OFF: the builder lowers TX_EN at w_off (R205). When the last burst in progress ends in an orderly disable, a
partly sent frame is completed at once (R61, R379). -/
def Cx.txEnOff (cx : Cx) : Cx :=
  let p (b : Burst) : Bool := b.on && !b.off
  let cx := (cx.txOff.setBursts (mapFirst p (fun b => { b with off := true }) cx.ch.us.bursts)).sweepBursts
  if cx.ch.disabling && !cx.ch.us.bursts.any Burst.live then cx.dropPartly else cx

def execTxEnOff (c : ReadBy) (s : State) : Out := s.onChanEcc c.chan c.ecc Cx.txEnOff

/-- FRAME_SENT: the last byte of the next frame leaves the framer interface (R202, R215, R384, R440). -/
def Cx.frameSent (cx : Cx) : Cx :=
  let p (b : Burst) : Bool := b.started && !b.done.isEmpty
  match cx.ch.us.bursts.find? p with
  | none => cx
  | some bu =>
    match bu.done with
    | [] => cx
    | f :: l =>
      let cx := (cx.setBursts (mapFirst p (fun b => { b with done := l }) cx.ch.us.bursts)).sweepBursts
      let cx := (cx.inc Cnt.CH_CNT_US_FRAMES).add Cnt.CH_CNT_US_BYTES f.len
      match f.src with
      | none => cx
      | some s =>
        let cx := cx.txComplete s (if f.cellErr then CplStatus.cellErr else CplStatus.ok) f.ftype (some f.ts)
        if s.tsReq then cx.tsqPush ⟨s.tsTag, s.queue, f.ts⟩ else cx

def execFrameSent (c : ChanId) (s : State) : Out :=
  s.onChan c fun cx => if cx.modeIn [ModeCode.halted, ModeCode.stop] then cx else cx.frameSent

/-- Staged and partly sent content that will not be sent is discarded: each frame is counted, and its
completion is written (R203). -/
def Cx.usDiscard (cx : Cx) : Cx :=
  let flying := cx.ch.us.bursts.flatMap Burst.done
  let cx := cx.setBursts []
  (flying.foldl (fun cx f =>
    (cx.inc Cnt.CH_CNT_US_NOT_SENT).txCompleteOpt f.src CplStatus.notSent f.ftype none) cx).dropPartly

end Sys2Proof.Machine
end

