-- ==== Sys2Proof/Machine/Pm.lean ====
section
/-!
DEFINITION. Performance monitoring (R577 to R582): the evaluation of each calendar second, availability, the bins
and their transfer to the Headland.
-/

namespace Sys2Proof.Machine

open Sys2Proof

/-! Reasons of PERF and of the PM notice (R581). -/
namespace PmReason
def bin15 : Nat := 1
def bin24 : Nat := 2
def unavail : Nat := 3
def avail : Nat := 4
end PmReason

def Cx.setPm (cx : Cx) (p : Pm) : Cx := { cx with ch := { cx.ch with pm := p } }

/-! ### Bins (R580) -/

/-- The six registers of a bin: START_LO, ES, SES, UAS, NMS, FLAGS. -/
def pmCur (day : Bool) : Nat := if day then Reg.CH_PM_CUR24_START_LO else Reg.CH_PM_CUR15_START_LO
def pmLast (day : Bool) : Nat := if day then Reg.CH_PM_LAST24_START_LO else Reg.CH_PM_LAST15_START_LO

/-- Start of the bin that holds a second. -/
def Cx.binStart (cx : Cx) (day : Bool) (s : Nat) : Nat :=
  if day then s - (s + 86400 - cx.hl.fld Reg.HL_PM_CFG F.HL_PM_CFG_DAY_OFS_S % 86400) % 86400 else s - s % 900

def Cx.binOpen (cx : Cx) (day : Bool) : Option Nat := if day then cx.ch.pm.start24 else cx.ch.pm.start15

/-- The next bin starts at a second. (DEDUCED, log entry 110) -/
def Cx.binBegin (cx : Cx) (day : Bool) (start : Nat) (incomplete : Bool) : Cx :=
  let cx := (List.range 6).foldl (fun cx k => cx.put (pmCur day + 4 * k) 0) cx
  let cx := (cx.put (pmCur day) (BitVec.ofNat 32 start)).put (pmCur day + 20) (BitVec.ofNat 32 (b2n incomplete))
  cx.setPm (if day then { cx.ch.pm with start24 := some start } else { cx.ch.pm with start15 := some start })

/-- The bin closes: it moves to LAST. (DEDUCED, log entry 110) -/
def Cx.binClose (cx : Cx) (day : Bool) : Cx :=
  let cx := (List.range 6).foldl (fun cx k => cx.put (pmLast day + 4 * k) (cx.get (pmCur day + 4 * k))) cx
  let cx := cx.setPm (if day then { cx.ch.pm with due24 := true } else { cx.ch.pm with due15 := true })
  cx.raise Ev.perf (if day then PmReason.bin24 else PmReason.bin15)

/-- Count in a register of the current bin; COUNT has 17 bits. -/
def Cx.binCount (cx : Cx) (day : Bool) (k : Nat) (b : Bool) : Cx :=
  let off := pmCur day + 4 * k
  if b then cx.setf off F.CH_PM_CUR15_ES_COUNT (cx.fld off F.CH_PM_CUR15_ES_COUNT + 1) else cx

/-- Calendar time was stepped or set in the current bin (R580). -/
def Cx.binSuspect (cx : Cx) (day : Bool) : Cx := cx.setf (pmCur day + 20) F.CH_PM_CUR15_FLAGS_SUSPECT 1

/-- A second is committed to the bin that holds its start; the bin's last second closes it. The bin that a forward step
of calendar time leaves is closed by it too, and time was stepped in it (R580, R582). (DEDUCED, log entry 110) -/
def Cx.binCommit (cx : Cx) (day : Bool) (x : PmSec) : Cx :=
  let b := cx.binStart day x.sec
  let cx := match cx.binOpen day with
    | none => cx.binBegin day b (x.sec != b)
    | some b' =>
      if b' < b then ((cx.when x.susp fun cx => cx.binSuspect day).binClose day).binBegin day b false else cx
  let ok := x.mon && !x.uas
  let cx := (((cx.binCount day 1 (ok && x.es)).binCount day 2 (ok && x.ses)).binCount day 3
    (x.mon && x.uas)).binCount day 4 (!x.mon)
  let cx := cx.when x.susp fun cx => cx.binSuspect day
  let next := cx.binStart day (x.sec + 1)
  if next = b then cx else (cx.binClose day).binBegin day next false

/-- Commit the seconds whose availability is decided by the end of second `s`. (DEDUCED, log entry 109) -/
def Cx.pmCommit (cx : Cx) (s : Nat) : List PmSec → Cx
  | [] => cx.setPm { cx.ch.pm with open_ := [] }
  | x :: l =>
    if x.sec + 9 ≤ s then ((cx.binCommit false x).binCommit true x).pmCommit s l
    else cx.setPm { cx.ch.pm with open_ := x :: l }

/-- The seconds of a Stop are counted at wake (R579). (DEDUCED, log entry 110) -/
def Cx.pmDue (cx : Cx) : Cx :=
  match cx.ch.pm.last with
  | some s => cx.pmCommit s cx.ch.pm.open_
  | none => cx

/-! ### Availability (R578) -/

/-- Set UAS in the latest `n` monitored seconds of a list given newest first. (DEDUCED, log entry 109) -/
def markRun (uas : Bool) : Nat → List PmSec → List PmSec
  | 0, l => l
  | _, [] => []
  | n + 1, x :: l => if x.mon then { x with uas := uas } :: markRun uas n l else x :: markRun uas (n + 1) l

/-- The second at which the latest run of ten monitored seconds begins. -/
def runStart (l : List PmSec) (dflt : Nat) : Nat :=
  match ((l.filter PmSec.mon).take 10).getLast? with
  | some x => x.sec
  | none => dflt

def Cx.unavail (cx : Cx) : Bool := cx.flg Reg.CH_PM_STATUS F.CH_PM_STATUS_UNAVAIL

/-- A monitored second extends or ends the run; the tenth turns availability. -/
def Cx.pmRun (cx : Cx) (x : PmSec) : Cx :=
  let u := cx.unavail
  let n := cx.fld Reg.CH_PM_STATUS F.CH_PM_STATUS_RUN + 1
  if x.ses = u then cx.setf Reg.CH_PM_STATUS F.CH_PM_STATUS_RUN 0
  else if n < 10 then cx.setf Reg.CH_PM_STATUS F.CH_PM_STATUS_RUN n
  else
    let newest := cx.ch.pm.open_.reverse
    let cx := (cx.setf Reg.CH_PM_STATUS F.CH_PM_STATUS_RUN 0).setf Reg.CH_PM_STATUS F.CH_PM_STATUS_UNAVAIL (b2n (!u))
    let cx := cx.setPm { cx.ch.pm with open_ := (markRun (!u) 10 newest).reverse }
    let reason := if u then PmReason.avail else PmReason.unavail
    (cx.raise Ev.perf reason).logDue LogKind.uat [reason, runStart newest x.sec]

/-! ### PM_SECOND -/

/-- Counting begins for the next second. (DEDUCED, log entry 110) -/
def Cx.pmFresh (cx : Cx) : Cx :=
  let mon := cx.modeIn [ModeCode.acquire, ModeCode.service] && cx.dsMode != DsMode.none
  cx.setPm { cx.ch.pm with
    lf := 0, err := 0, mon := mon, loss := !cx.flg Reg.CH_DS_STATUS F.CH_DS_STATUS_FRAMER_SYNC }

/-- A second that has ended is evaluated. In Stop it is only noted. (DEDUCED, log entry 109) -/
def Cx.pmEval (cx : Cx) (e : PmHeld) : Cx :=
  let p := cx.ch.pm
  let ses := e.loss || (e.lf != 0 && decide (3 * e.lf ≤ 10 * e.err))
  let x : PmSec := ⟨e.sec, e.mon, e.loss || e.err != 0, ses, e.mon && cx.unavail, e.steps != p.steps⟩
  let cx := cx.setPm { p with open_ := p.open_ ++ [x], last := some e.sec, steps := e.steps }
  if cx.ch.coreStopped then cx
  else
    let cx := cx.put Reg.CH_PM_LAST_SEC (BitVec.ofNat 32 (min 16383 e.err + b2n e.loss * 2 ^ 14))
    (if x.mon then cx.pmRun x else cx).pmDue

/-- A second that waited for its last line frame is evaluated (R577). (DEDUCED, log entry 151) -/
def Cx.pmFlush (cx : Cx) : Cx :=
  match cx.ch.pm.held with
  | some e => (cx.setPm { cx.ch.pm with held := none }).pmEval e
  | none => cx

/-- The line frame that arrives belongs to the present second, and may still be found errored (R577).
(DEDUCED, log entry 151) -/
def Cx.pmUndecided (cx : Cx) : Bool :=
  match cx.ch.ds.cur with
  | some lf => cx.ch.pm.lf != 0 && !lf.errd && (!lf.evald || lf.open_)
  | none => false

/-- PM_SECOND: the calendar second before the present one has ended. A line frame of it that still arrives is waited for
(R577). After a backward step evaluation pauses (R582). (DEDUCED, log entries 109 and 151) -/
def Cx.pmSecond (cx : Cx) : Cx :=
  let cx := cx.pmFlush
  let p := cx.ch.pm
  let s := cx.hl.stu.sec - 1
  let past : Bool := match p.last with
    | some l => decide (s ≤ l)
    | none => false
  let e : PmHeld := ⟨s, p.lf, p.err, p.loss, p.mon, cx.hl.cnt Cnt.HL_CNT_STU_STEPS⟩
  (if past || cx.hl.stu.sec == 0 then cx
  else if cx.pmUndecided then cx.setPm { p with held := some e }
  else cx.pmEval e).pmFresh

def execPmSecond (c : ChanId) (s : State) : Out := s.onChan c Cx.pmSecond

/-- PM_PREV_COPY: the core copies a closed bin, and posts a PM notice (R580 step 2). -/
def Cx.pmPrevCopy (cx : Cx) (day : Bool) : Cx :=
  let due := if day then cx.ch.pm.due24 else cx.ch.pm.due15
  if due = false ∨ cx.hl.fwUp = false ∨ cx.ch.coreStopped then cx
  else
    let base := if day then Reg.HL_PM_PREV24_START_LO cx.id.val else Reg.HL_PM_PREV15_START_LO cx.id.val
    let cx := (List.range 6).foldl (fun cx k =>
      cx.onHl fun h => h.put (base + 4 * k) (cx.get (pmLast day + 4 * k))) cx
    let cx := cx.setPm (if day then { cx.ch.pm with due24 := false } else { cx.ch.pm with due15 := false })
    cx.onHl fun h => h.notice Notice.pm cx.id.val [if day then PmReason.bin24 else PmReason.bin15]

def execPmPrevCopy (c : ChanId) (day : Bool) (s : State) : Out := s.onChan c fun cx => cx.pmPrevCopy day

end Sys2Proof.Machine
end

