-- ==== Sys2Proof/Machine/LineFrame.lean ====
section
/-!
DEFINITION. Line frames (chapter 03): the start marker, the sync guard's evaluation, the header split, and the
framer's loss of sync, with what the guard's moves do to the activation state (R145, R146).
-/

namespace Sys2Proof.Machine

open Sys2Proof

/-! ### The header (R94 to R97) -/

/-- What a header gives: whether its check passes, the start of payload, and how many allocation structures and
management messages stand before it. -/
structure LfHeader where
  pass  : Bool
  start : Nat
  maps  : Nat
  msgs  : Nat
  deriving DecidableEq, Repr

/-- BWMAP_LENGTH and PLOAM_COUNT of a header in a receive mode (R94 to R96). -/
def headerCounts (mode : Nat) (w : DWord) : Nat × Nat :=
  let v := w.toNat
  if mode = DsMode.ext100 then (nbits v 63 52, nbits v 51 44)
  else if mode = DsMode.g9807 then (nbits v 63 53, nbits v 52 45)
  else Config.counts9804 w

/-- The header of a line frame in a receive mode: its check, and the payload start within the content. -/
def readHeader (mode len : Nat) (w : DWord) (hec : Hec) : LfHeader :=
  let v := w.toNat
  let n := headerCounts mode w
  let p (ok : Bool) (start : Nat) : LfHeader := ⟨ok && decide (start ≤ len), start, n.1, n.2⟩
  if mode = DsMode.ext100 then
    p (crc16 ((beBytes 8 v).take 6) == v % 65536) (8 + 16 * n.1 + 48 * n.2)
  else if mode = DsMode.g9807 then
    p (hec != .uncorr) (4 + 8 * n.1 + 48 * n.2)
  else p (hec != .uncorr) (Config.payload9804 w)

/-- The operands hold all the structures and messages that the header names; where they hold fewer, the payload start
lies beyond the content that arrived (R94 to R97). -/
def LfHeader.heldBy (h : LfHeader) (x : LineIn) : Bool :=
  decide (h.maps ≤ x.map.length) && decide (h.msgs ≤ x.msgs.length)

/-! ### Moves of the guard and of the activation state (R145, R146) -/

/-- Firmware finds that the guard has left ACCEPT: OPERATION leads to LODS, SERIAL_NUMBER and RANGING return to INITIAL,
and in FAST_REENTRY the count of line frames begins anew (R144, R166). (DEDUCED, log entry 35) -/
def Cx.guardLost (cx : Cx) : Cx :=
  let st := cx.actState
  if st = Act.operation then cx.setAct Act.lods
  else if st = Act.serialNumber then cx.setAct Act.initial
  else if st = Act.ranging then (cx.recEdit Cx.dropId).setAct Act.initial
  else if st = Act.fastReentry then cx.setActAux { cx.ch.act with count := none, grant := false }
  else cx

/-- Firmware finds the guard in ACCEPT: LODS returns to OPERATION (R146), and INITIAL may lead on. -/
def Cx.guardGained (cx : Cx) : Cx := if cx.actState = Act.lods then cx.setAct Act.operation else cx.progress

/-- Firmware follows a move of the guard, when it can act on the channel. (DEDUCED, log entry 35) -/
def Cx.guardMoved (cx : Cx) (old : Nat) : Cx :=
  let now := cx.guard
  if cx.fwActs = false then cx
  else if old = Guard.accept ∧ now ≠ Guard.accept then cx.guardLost
  else if old ≠ Guard.accept ∧ now = Guard.accept then cx.guardGained
  else cx

/-- Firmware can act on the channel again, at READY or at the end of a wake: it acts on the expiries held for it, and
follows the guard as it then stands (R572). (DEDUCED, log entry 125) -/
def Cx.fwCatchUp (cx : Cx) : Cx :=
  let a := cx.ch.act
  if cx.fwActs = false ∨ cx.actState = Act.off then cx
  else
    let cx := cx.setActAux { a with to1 := false, to2 := false }
    let cx := (cx.when a.to1 Cx.to1Expired).when a.to2 Cx.to2Expired
    (if cx.guard = Guard.accept then cx.guardGained else cx.guardLost).tuCheck

/-- After the guard has moved: the activation state, the loss of sync as a wake source (R475), and the
eligibility of the head end as a time source (R417). (DEDUCED, log entries 33 and 35) -/
def Cx.afterGuard (cx : Cx) (old : Nat) : Cx :=
  let lost := old == Guard.accept && cx.guard != Guard.accept
  let cx := cx.guardMoved old
  let cx := if lost && cx.ch.pwr.watch && cx.flg Reg.CH_WAKE_CFG F.CH_WAKE_CFG_SYNC_LOSS then cx.wakeSource Wk.sync
    else cx
  cx.tuCheck

/-- DEDUCED, log entry 34. -/
def Cx.setCount (cx : Cx) (n : Nat) : Cx := cx.setf Reg.CH_DS_STATUS F.CH_DS_STATUS_COUNT n
def Cx.setBase (cx : Cx) (b : Bool) : Cx := cx.setf Reg.CH_DS_STATUS F.CH_DS_STATUS_BASE (b2n b)
def Cx.base (cx : Cx) : Bool := cx.flg Reg.CH_DS_STATUS F.CH_DS_STATUS_BASE
/-- DEDUCED, log entry 34. -/
def Cx.setRun (cx : Cx) (n : Nat) : Cx := cx.setf Reg.CH_DS_STATUS F.CH_DS_STATUS_HDR_RUN n

/-- The guard enters ACCEPT; the seed of a handover is dropped (R544). (DEDUCED, log entry 34) -/
def Cx.enterAccept (cx : Cx) : Cx :=
  let cx := ((cx.setGuard Guard.accept).setBase false).setRun 0
  cx.setDs { cx.ch.ds with seed := none }

/-- The line frame is one that the seed lets in at once (R544). -/
def Cx.seedHit (cx : Cx) (sfc : Nat) : Bool :=
  match cx.ch.ds.seed with
  | some (s, _) =>
    let d := (sfc + 2 ^ 51 - s) % 2 ^ 51
    decide (1 ≤ d) && decide (d ≤ 16)
  | none => false

/-- The guard's rules R87 and R544 for a line frame whose header has ended. Answers whether it is accepted. -/
def Cx.guardEval (cx : Cx) (sfc : Nat) (consistent pass : Bool) : Cx × Bool :=
  let g := cx.guard
  if g = Guard.confirm then
    if cx.base && consistent && pass then
      let n := cx.fld Reg.CH_DS_STATUS F.CH_DS_STATUS_COUNT + 1
      let cx := cx.setCount n
      if max 1 (cx.fld Reg.CH_DS_SYNC F.CH_DS_SYNC_CONFIRM) ≤ n then (cx.enterAccept, true) else (cx, false)
    else
      let cx := cx.when cx.base fun cx => cx.inc Cnt.CH_CNT_DS_FALSE_LOCK_REJECT
      let cx := cx.setCount 0
      if pass && cx.seedHit sfc then (cx.enterAccept, true) else (cx.setBase pass, false)
  else if g = Guard.accept then
    if consistent = false then
      ((((cx.inc Cnt.CH_CNT_DS_SFC_DISCONT).setGuard Guard.confirm).setCount 0).setBase pass, false)
    else if pass then (cx.setRun 0, true)
    else
      let n := cx.fld Reg.CH_DS_STATUS F.CH_DS_STATUS_HDR_RUN + 1
      let cx := (cx.inc Cnt.CH_CNT_DS_HDR_ERR).setRun n
      if max 1 (cx.fld Reg.CH_DS_SYNC F.CH_DS_SYNC_HDR_LOSS) ≤ n then
        ((((cx.inc Cnt.CH_CNT_DS_SYNC_LOSS).setGuard Guard.confirm).setCount 0).setBase false, false)
      else (cx, false)
  else (cx, false)

/-- The line frame before had the SFC before this one (R86, R88). -/
def Cx.sfcConsistent (cx : Cx) (sfc : Nat) : Bool :=
  match cx.ch.ds.prevSfc with
  | some p => sfc == (p + 1) % 2 ^ 51
  | none => false

/-- GUARD_EVALUATE of the current line frame (R87, R116, R577). Answers whether it is accepted.
(DEDUCED, log entry 98) -/
def Cx.evaluate (cx : Cx) (pass : Bool) : Cx × Bool :=
  match cx.ch.ds.cur with
  | none => (cx, false)
  | some lf =>
    let old := cx.guard
    let consistent := cx.sfcConsistent lf.sfc
    let cx := cx.setDs { cx.ch.ds with cur := some { lf with evald := true } }
    let cx := if pass && (consistent || cx.ch.ds.prevSfc.isNone) then cx else cx.bumpEpoch
    let r := cx.guardEval lf.sfc consistent pass
    let cx := if r.2 then r.1 else r.1.inc Cnt.CH_CNT_DS_LF_DISCARDED
    let cx := if pass && consistent && r.2 then cx else cx.lfErrored
    (cx.afterGuard old, r.2)

/-! ### The header split (R98, R156, R157) -/

/-- A management message is kept: broadcast, or for this terminal. (DEDUCED, log entry 37) -/
def Cx.keepMessage (cx : Cx) (m : List Byte) : Bool :=
  let t := be16 m 0 % 1024
  t == 0x3FF || (cx.idValid && t == cx.terminalId)

/-- One management message at mailbox ingress. (DEDUCED, log entry 37) -/
def Cx.mgmtIngress (cx : Cx) (m : List Byte) : Cx :=
  if cx.keepMessage m = false then cx
  else
    let q := cx.hl.mq[cx.id]
    let cx := cx.inc Cnt.CH_CNT_ACT_DS_MSG
    if 64 ≤ q.down.length then cx.inc Cnt.CH_CNT_ACT_DS_MSG_DROP
    else cx.onHl fun h => { h with mq := h.mq.set cx.id { q with down := q.down ++ [(m ++ List.replicate 48 0).take 48] } }

/-- A line frame that the guard accepts: its map, its messages, the offset measurement it may be the target of,
and its payload (R98, R166, R431, R467). The source of a handover accepts none after its freeze (R538). The map and the messages are as many as the header names (R94 to R96). -/
def Cx.acceptFrame (cx : Cx) (x : LineIn) (h : LfHeader) : Cx :=
  match cx.ch.ds.cur with
  | none => cx
  | some lf =>
    if cx.mode = ModeCode.handover ∧ cx.hoRole = 1 then cx
    else
      let cx := (cx.inc Cnt.CH_CNT_DS_LF_ACCEPTED).put Reg.CH_DS_SFC_LO (BitVec.ofNat 32 lf.sfc)
      let cx := cx.put Reg.CH_DS_SFC_HI (BitVec.ofNat 32 (lf.sfc / 2 ^ 32))
      let cx := cx.when cx.watching fun cx => cx.inc Cnt.CH_CNT_PWR_WATCH_LF
      let cx := match cx.ch.act.count with
        | some n => if cx.actState = Act.fastReentry then cx.setActAux { cx.ch.act with count := some (n + 1) } else cx
        | none => cx
      let before := cx.ch.act.grant
      let cx := if cx.mode = ModeCode.halted then cx
        else
          let r := cx.acceptMap lf (x.map.take h.maps)
          if r.2 && cx.flg Reg.CH_WAKE_CFG F.CH_WAKE_CFG_FWI then r.1.wakeSource Wk.fwi else r.1
      let granted := cx.ch.act.grant && !before
      let cx := (x.msgs.take h.msgs).foldl Cx.mgmtIngress cx
      let cx := cx.when granted fun cx => cx.setActAux { cx.ch.act with ahead := cx.hl.mq[cx.id].down.length }
      let cx := cx.armFrame lf.sfc (if cx.ch.us.eqdOk then some cx.ch.us.eqd else none)
      let open_ := (cx.running && !cx.ch.disabling) || cx.watching
      match cx.ch.ds.cur with
      | some lf => cx.setDs { cx.ch.ds with cur := some { lf with open_ := open_, pos := h.start } }
      | none => cx

/-! ### Framer sync (R87, R89) -/

/-- The framer leaves Sync. Delineation of the line frame in progress ends. (DEDUCED, log entry 34) -/
def Cx.syncLoss (cx : Cx) : Cx :=
  let old := cx.guard
  let cx := (cx.setf Reg.CH_DS_STATUS F.CH_DS_STATUS_FRAMER_SYNC 0).endDelineation.pmLoss
  if old = Guard.nosync then cx
  else
    let cx := cx.when (old == Guard.confirm && cx.base) fun cx => cx.inc Cnt.CH_CNT_DS_FALSE_LOCK_REJECT
    let cx := cx.when (old == Guard.accept) fun cx => cx.inc Cnt.CH_CNT_DS_SYNC_LOSS
    ((cx.setGuard Guard.nosync).setBase false).afterGuard old

/-- The framer's sync state is sampled in a cycle (R80, R595): its loss acts, and its gain shows in FRAMER_SYNC (R92). -/
def Cx.sampleSync (cx : Cx) (sync : Bool) : Cx :=
  if sync then cx.setf Reg.CH_DS_STATUS F.CH_DS_STATUS_FRAMER_SYNC 1 else cx.syncLoss

/-- FRAMER_SYNC_LOSS: the framer's sync state changes in a cycle that need hold no valid word. -/
def execFramerSyncLoss (w : FramerWord) (s : State) : Out :=
  s.onChan w.chan fun cx => if cx.lineOn then cx.sampleSync w.sync else cx

/-! ### LINE_FRAME_START (R80 to R98) -/

/-- The line frame before it ends at the marker (R90): it is counted when it was cut, and it is evaluated as
failing when its header had not ended. (DEDUCED, log entries 98 and 136) -/
def Cx.endFrame (cx : Cx) (trunc : Bool) : Cx :=
  match cx.ch.ds.cur with
  | none => cx
  | some lf =>
    let cx := cx.when (trunc || !lf.evald) fun cx => (cx.inc Cnt.CH_CNT_DS_LF_TRUNC).bumpEpoch
    if lf.evald then cx else (cx.evaluate false).1

/-- What the start marker latches (R91, R150, R154, R200). -/
def Cx.latchMarker (cx : Cx) : Cx :=
  { cx with ch := { cx.ch with us := { cx.ch.us with
      eqd := (cx.get Reg.CH_ACT_EQD).toNat
      eqdOk := cx.flg Reg.CH_ACT_STATUS F.CH_ACT_STATUS_EQD_VALID
      delayMax := cx.fld Reg.CH_ACT_SN_CFG F.CH_ACT_SN_CFG_DELAY_MAX
      lead := cx.fld Reg.CH_US_CFG F.CH_US_CFG_LEAD_US } } }

/-- The seed is held for 16 start markers (R544). -/
def Ds.seedTick (d : Ds) : Ds :=
  { d with seed := match d.seed with
      | some (s, n + 1) => some (s, n)
      | _ => none }

/-- A start marker. (DEDUCED, log entries 79 and 136) -/
def Cx.lfStart (cx : Cx) (x : LineIn) : Cx :=
  let cx := (cx.endFrame x.trunc).pmFlush
  let cx := cx.inc Cnt.CH_CNT_DS_LF_RX
  let cx := cx.when (cx.mode == ModeCode.handover && cx.hoRole == 1 && (cx.hl.ho.map Ho.kind).getD 0 == 0) fun cx =>
    cx.onHl fun h => h.inc Cnt.HL_CNT_HO_DS_LF_LOST
  let cx := cx.sampleSync x.sync
  let mode := cx.dsMode
  let lf : LineFrame :=
    { sfc := x.sfc.toNat, mode := mode, mark := cx.time8.toNat, len := x.len, pos := 0, open_ := false,
      bumped := false, evald := false, errd := false, flagged := x.flagged }
  let prev := match cx.ch.ds.cur with
    | some l => some l.sfc
    | none => cx.ch.ds.prevSfc
  let cx := cx.setDs ({ cx.ch.ds with cur := some lf, prevSfc := prev } : Ds).seedTick
  let cx : Cx := { cx with ch := { cx.ch with pm := { cx.ch.pm with lf := cx.ch.pm.lf + 1 } } }
  let cx := cx.when (!x.flagged.isEmpty) fun cx => (cx.inc Cnt.CH_CNT_DS_FEC_UNCORR).lfErrored
  let cx := cx.latchMarker
  let cx := cx.when cx.ch.disabling Cx.dropPartials
  if x.sync && mode != DsMode.none && cx.guard == Guard.nosync then
    ((cx.setGuard Guard.confirm).setCount 0).setBase false
  else cx

/-- A start marker and the header that follows it. -/
def Cx.lineFrame (cx : Cx) (x : LineIn) : Cx :=
  let cx := cx.lfStart x
  match x.header with
  | none => cx
  | some w =>
    let h := readHeader cx.dsMode x.len w x.hec
    match cx.evaluate (h.pass && h.heldBy x) with
    | (cx, true) => cx.acceptFrame x h
    | (cx, false) => cx

/-- DS_WORD_AFTER_END: a valid word between line frames is discarded and counted (R596), by a line island that runs
(R69). The framer's sync state is sampled in its cycle (R80, R595): its loss acts, and its gain shows in FRAMER_SYNC. -/
def Cx.wordAfterEnd (cx : Cx) (sync : Bool) : Cx :=
  let cx := cx.inc Cnt.CH_CNT_DS_LF_TRUNC
  if sync || cx.flg Reg.CH_DS_STATUS F.CH_DS_STATUS_FRAMER_SYNC then cx.sampleSync sync else cx

/-- DS_WORD_AFTER_END. -/
def execDsWordAfterEnd (w : FramerWord) (s : State) : Out :=
  s.onChan w.chan fun cx => if cx.lineOn then cx.wordAfterEnd w.sync else cx

/-- LINE_FRAME_START: a line island that runs takes the line frame. -/
def execLineFrameStart (c : ChanId) (x : LineIn) (s : State) : Out :=
  s.onChan c fun cx => if cx.lineOn then cx.lineFrame x else cx

end Sys2Proof.Machine
end

