-- ==== Sys2Proof/Machine/Rings.lean ====
section
/-!
DEFINITION. The rows of the descriptor and completion rings (chapters 10 and 11): queue configuration, doorbell
lines, descriptors, frame storage, write-out, and completion rings.
-/

namespace Sys2Proof.Machine

open Sys2Proof

/-- The ring engine and the queues work: the core clock runs, and the channel is neither Disabled nor Halted nor
held in a handover, nor entering Stop (R472). -/
def Cx.ringsRun (cx : Cx) : Bool := cx.running && cx.phase == Phase.run

/-! ### Queue configuration (R375 to R377, R656) -/

/-- The fields of a queue's CTL register that a write changes only while EN is 0 and IDLE is 1. -/
def Cx.qCtlFields (cx : Cx) (tx : Bool) (q : Nat) (v : Word) : Cx × Bool :=
  let a := qCtl tx q
  let free := !cx.qEn tx q && cx.qIdle tx q
  let change := getF v F.CH_RXQ_CTL_SIZE_LOG2 != cx.qLog2 tx q || getF v F.CH_RXQ_CTL_CRING != cx.qRing tx q
  let cx := cx.when free fun cx =>
    (cx.setf a F.CH_RXQ_CTL_SIZE_LOG2 (getF v F.CH_RXQ_CTL_SIZE_LOG2)).setf a F.CH_RXQ_CTL_CRING
      (getF v F.CH_RXQ_CTL_CRING)
  let cx := cx.when tx fun cx =>
    (cx.setf a F.CH_TXQ_CTL_PRIO (getF v F.CH_TXQ_CTL_PRIO)).setf a F.CH_TXQ_CTL_WEIGHT
      (getF v F.CH_TXQ_CTL_WEIGHT)
  (cx, change && !free)

/-- A write of a queue's CTL register. (DEDUCED, log entry 15) -/
def Cx.qCtlWrite (cx : Cx) (tx : Bool) (q : Nat) (v : Word) : Cx :=
  let r := cx.qCtlFields tx q v
  let cx := r.1
  let en := getB v F.CH_RXQ_CTL_EN
  let refused := en && !cx.qEn tx q && !cx.enableOk tx q
  let cx :=
    if en && !cx.qEn tx q then (if refused then cx else cx.queueEnable tx q)
    else if !en && cx.qEn tx q then cx.takeDown tx q false
    else cx
  cx.when (r.2 || refused) fun cx => cx.configEvent (qCtl tx q)

/-- QUEUE_ENABLE: a write of a queue's CTL register with EN = 1. -/
def execQueueEnable (c : ChanId) (tx : Bool) (q : Fin 256) (v : Word) (s : State) : Out :=
  s.coreWrite c fun cx => cx.qCtlWrite tx q (setF v F.CH_RXQ_CTL_EN 1)

/-- QUEUE_TAKEDOWN: a write of a queue's CTL register with EN = 0. -/
def execQueueTakedown (c : ReadBy) (tx : Bool) (q : Fin 256) (v : Word) (s : State) : Out :=
  s.coreWriteEcc c fun cx => cx.qCtlWrite tx q (setF v F.CH_RXQ_CTL_EN 0)

/-- QUEUE_IDLE (R378). -/
def execQueueIdle (c : ChanId) (tx : Bool) (q : Fin 256) (s : State) : Out :=
  s.onChan c fun cx => if cx.ch.coreStopped then cx else cx.queueIdle tx q

/-- TAKEDOWN_GRANT_TIMEOUT: the partly sent frame of a queue that is taken down completes as not sent. -/
def Cx.grantTimeout (cx : Cx) (q : Nat) : Cx :=
  match cx.txHead q with
  | some f =>
    if cx.qEn true q = false ∧ 0 < f.sent then
      (((cx.txPop q).releaseFrame f.frame).inc Cnt.CH_CNT_US_NOT_SENT).txCompleteOpt f.src CplStatus.notSent
        f.frame.ftype none
    else cx
  | none => cx

def execTakedownGrantTimeout (c : ChanId) (q : Fin 256) (s : State) : Out :=
  s.onChan c fun cx => if cx.ringsRun then cx.grantTimeout q else cx

/-! ### Doorbell lines (R348 to R355, R380) -/

/-- Every queue and completion ring is disabled and idle (R380). -/
def Cx.allIdle (cx : Cx) : Bool :=
  (List.range 256).all (fun q => (!cx.qEn false q && cx.qIdle false q) && (!cx.qEn true q && cx.qIdle true q)) &&
  (List.range 64).all fun r =>
    !cx.flg (Reg.CH_CRING_CTL r) F.CH_CRING_CTL_EN && cx.flg (Reg.CH_CRING_CTL r) F.CH_CRING_CTL_IDLE

/-- A write of CH_DB_BASE_LO or CH_DB_BASE_HI; one that changes nothing raises nothing (R656). -/
def Cx.dbBase (cx : Cx) (hi : Bool) (v : Word) : Cx :=
  let a := if hi then Reg.CH_DB_BASE_HI else Reg.CH_DB_BASE_LO
  let w := if hi then v else v &&& 0xFFFFF001
  if w = cx.get a then cx else if cx.allIdle then cx.put a w else cx.configEvent a

def execDbBaseWrite (c : ChanId) (hi : Bool) (v : Word) (s : State) : Out :=
  s.coreWrite c fun cx => cx.dbBase hi v

def Cx.watchMode (cx : Cx) : Bool := cx.flg Reg.CH_DB_POLL F.CH_DB_POLL_WATCH

/-- DOORBELL_POLL: the poll interval ends. -/
def execDoorbellPoll (c : ChanId) (s : State) : Out :=
  s.onChan c fun cx => if cx.watchMode then cx else cx.triggerAll

/-- An invalidated line is read by each channel that watches it. -/
def Cx.invalidate (cx : Cx) (line : Nat) : Cx :=
  if cx.hl.resetRuns cx.id || !cx.watchMode then cx
  else (List.range 36).foldl (fun cx k => if (cx.lineAddr k).toNat = 64 * line then cx.trigger k else cx) cx

/-- HP_INVALIDATE: `line` is bits 63:6 of the line's address (R584). -/
def execHpInvalidate (line : BitVec 58) (s : State) : Out :=
  s.alive fun s => s.overChans (fun cx => cx.invalidate line.toNat) (List.finRange 17)

/-- DB_KICK: a write of CH_DB_KICK. -/
def execDbKick (c : ChanId) (k : Fin 64) (s : State) : Out :=
  s.coreWrite c fun cx => (cx.inc Cnt.CH_CNT_RING_KICKS).trigger k

/-- The read leaves the outstanding ones, or is issued once more for a trigger that came meanwhile (R351). -/
def readDone (w : ReadWhat) : List ReadReq → List ReadReq
  | [] => []
  | r :: l => if r.what = w then (if r.again then ⟨w, 0, false⟩ :: l else l) else r :: readDone w l

def Cx.readPending (cx : Cx) (w : ReadWhat) : Bool := cx.ch.rings.reads.any fun r => r.what == w

/-- The index that an entry of a line stands at: P of a queue, or C of a completion ring. -/
def Cx.lineIndex (cx : Cx) (k e : Nat) : Word :=
  if k < 16 then cx.get (qTail false (16 * k + e))
  else if k < 32 then cx.get (qTail true (16 * (k - 16) + e))
  else cx.get (Reg.CH_CRING_CONS (16 * (k - 32) + e))

/-- One entry of a line read in Stop (R354): the host port keeps it when it passes the test of R353 or R390
against the index it holds. Answers the index held then, and counts a bad one. (DEDUCED, log entry 63) -/
def Cx.stopEntry (cx : Cx) (k e : Nat) (held t : Word) : Cx × Word :=
  if cx.entryLive k e = false ∨ t = held then (cx, held)
  else if k < 32 then
    let tx := decide (16 ≤ k)
    let q := 16 * (k % 16) + e
    let c := cx.get (qHead tx q)
    if idxDiff held c ≤ idxDiff t c ∧ idxDiff t c ≤ 2 ^ cx.qLog2 tx q then
      (cx.when (tx && cx.flg Reg.CH_WAKE_CFG F.CH_WAKE_CFG_TX_DB) fun cx => cx.wakeSource Wk.txDb, t)
    else ((cx.inc Cnt.CH_CNT_RING_BAD_TAIL).raise Ev.ringFault (queueNo tx q + 0x1000), held)
  else
    let r := 16 * (k - 32) + e
    let p := cx.get (Reg.CH_CRING_PROD r)
    if idxDiff t held ≤ idxDiff p held then (cx, t)
    else ((cx.inc Cnt.CH_CNT_CPL_BAD_CONS).raise Ev.ringFault (r + 0x2000), held)

/-- All entries of a line read in Stop. -/
def Cx.stopEntries (cx : Cx) (k : Nat) : Nat → List Word → List Word → Cx × List Word
  | e, h :: hs, t :: ts =>
    let r := cx.stopEntry k e h t
    let r' := r.1.stopEntries k (e + 1) hs ts
    (r'.1, r.2 :: r'.2)
  | _, hs, _ => (cx, hs)

/-- A line read while the core clock is stopped. (DEDUCED, log entries 63 and 79) -/
def Cx.stopLine (cx : Cx) (k : Nat) (ts : List Word) : Cx :=
  let held := match Sparse.get (fun _ => []) cx.ch.rings.stopLines k with
    | [] => (List.range 16).map fun e => cx.lineIndex k e
    | l => l
  let r := cx.stopEntries k 0 held ts
  r.1.setRings { r.1.ch.rings with stopLines := Sparse.set (fun _ => []) r.1.ch.rings.stopLines k r.2 }

/-- The lines held in Stop are delivered at wake (R354). (DEDUCED, log entry 63) -/
def Cx.deliverLines (cx : Cx) : Cx :=
  let l := cx.ch.rings.stopLines
  l.foldl (fun cx e => cx.applyLine e.1 0 e.2) (cx.setRings { cx.ch.rings with stopLines := [] })

/-- DOORBELL_LINE_READ: a read of a line returns with its 16 entries. A ring engine that an aborted entry has stopped takes
none (R474). (DEDUCED, log entry 63) -/
def Cx.lineRead (cx : Cx) (k : Fin 36) (ts : List Word) : Cx :=
  if cx.readPending (.doorbell k) = false ∨ cx.subStopped 1 ∨ cx.modeIn [ModeCode.disabled, ModeCode.halted] then cx
  else
    let cx := (cx.setRings { cx.ch.rings with reads := readDone (.doorbell k) cx.ch.rings.reads }).inc
      Cnt.CH_CNT_RING_DB_READS
    if cx.ch.coreStopped then cx.stopLine k (ts.take 16) else cx.applyLine k 0 (ts.take 16)

def execDoorbellLineRead (c : ChanId) (k : Fin 36) (ts : List Word) (s : State) : Out :=
  s.onChan c fun cx => cx.lineRead k ts

/-! ### Descriptors (R362 to R365) -/

/-- Descriptor slots are read for an enabled queue. -/
def Cx.fetches (cx : Cx) (tx : Bool) (q : Nat) : Bool :=
  cx.qEn tx q && !cx.ch.coreStopped && cx.mode != ModeCode.halted

/-- Host address of the slot of an index of a queue (R342). -/
def Cx.descAddr (cx : Cx) (tx : Bool) (q : Nat) (idx : Word) : DWord :=
  BitVec.ofNat 64
    (if tx then slotAddr (cx.get (Reg.CH_TXQ_BASE_LO q)) (cx.get (Reg.CH_TXQ_BASE_HI q)) 32 (cx.qLog2 true q) idx
     else slotAddr (cx.get (Reg.CH_RXQ_BASE_LO q)) (cx.get (Reg.CH_RXQ_BASE_HI q)) 32 (cx.qLog2 false q) idx)

/-- A read of descriptors from an index on has returned its data: its failures are over (R355). -/
def Cx.descRead (cx : Cx) (tx : Bool) (q : Fin 256) (idx : Word) : Cx :=
  cx.setRings { cx.ch.rings with
    reads := readDone (.desc tx q idx) cx.ch.rings.reads, slotAt := some (cx.descAddr tx q idx) }

/-- DESCRIPTOR_FETCH: a read of up to 8 consecutive slots returns. -/
def Cx.descFetch (cx : Cx) (tx : Bool) (q : Fin 256) (idx : Word) (slots : List (List Byte)) : Cx :=
  if cx.fetches tx q && !cx.subStopped 1 then
    ((cx.descRead tx q idx).slotReads tx q idx (slots.take 8)).takeSlots tx q
  else cx

def execDescriptorFetch (c : ChanId) (tx : Bool) (q : Fin 256) (idx : Word) (slots : List (List Byte))
    (s : State) : Out :=
  s.onChan c fun cx => cx.descFetch tx q idx slots

/-- The slot below P that the queue waits for (R364). -/
def Cx.waitSlot (cx : Cx) (tx : Bool) (q : Nat) : Option Word :=
  let c := cx.get (qHead tx q)
  let taken := if tx then (cx.txq q).descs.length else 0
  let idx := c + BitVec.ofNat 32 taken
  if idxDiff idx c < idxDiff (cx.get (qTail tx q)) c && (cx.heldSlots tx q).any (fun h => h.idx == idx && !h.matched)
  then some idx else none

/-- OWN_REREAD: the slot is read again. -/
def Cx.ownReread (cx : Cx) (tx : Bool) (q : Fin 256) (slot : List Byte) : Cx :=
  match (if cx.fetches tx q then cx.waitSlot tx q else none) with
  | some idx => ((cx.descRead tx q idx).slotRead tx q idx slot).takeSlots tx q
  | none => cx

def execOwnReread (c : ChanId) (tx : Bool) (q : Fin 256) (slot : List Byte) (s : State) : Out :=
  s.onChan c fun cx => cx.ownReread tx q slot

/-! ### Failed reads (R355, R587 to R590) -/

/-- A failure of a read is noted with it. -/
def readFailed (w : ReadWhat) : List ReadReq → List ReadReq × Nat
  | [] => ([⟨w, 1, false⟩], 1)
  | r :: l =>
    if r.what = w then ({ r with tries := r.tries + 1 } :: l, r.tries + 1)
    else
      let x := readFailed w l
      (r :: x.1, x.2)

/-- A read of a doorbell line or of descriptors fails with a code. The fourth failure halts.
(DEDUCED, log entry 62) -/
def Cx.readError (cx : Cx) (w : ReadWhat) (code : Byte) : Cx :=
  let live := match w with
    | .doorbell _ => cx.readPending w && !cx.modeIn [ModeCode.disabled, ModeCode.halted]
    | .desc tx q _ => cx.fetches tx q
  if live = false ∨ code = 0 then cx
  else if fatalCode code then cx.hostFatal code false
  else
    let cx := cx.onHl fun h => h.nonFatal code cx.id.val false
    let r := readFailed w cx.ch.rings.reads
    let cx := cx.setRings { cx.ch.rings with reads := r.1 }
    if 4 ≤ r.2 then cx.halt Halt.hostFatal code.toNat else cx

/-- HOST_READ_RETRY. -/
def execHostReadRetry (c : ChanId) (w : ReadWhat) (code : Byte) (s : State) : Out :=
  s.onChan c fun cx => cx.readError w code

/-! ### Storing transmit frames (R323, R361, R365 to R367) -/

/-- The descriptors of the queue's first chain, when the chain is whole. -/
def TxQ.chain (x : TxQ) : Option (TxDesc × List TxDesc) :=
  match x.descs with
  | d :: _ => if d.nbuf ≤ x.descs.length then some (d, x.descs.take d.nbuf) else none
  | [] => none

/-- Stored length of a host frame (R361). -/
def storedLen (flen : Nat) : Nat := max flen 60 + 4

/-- A queue's next frame starts storage if it can (R366, R393, R323). Answers whether it has.
(DEDUCED, log entries 64 and 156) -/
def Cx.txStart (cx : Cx) (q : Nat) : Cx × Bool :=
  let x := cx.txq q
  match (if cx.qEn true q && x.storing.isNone then x.chain else none) with
  | none => (cx, false)
  | some (d, _) =>
    let n := cellsFor (storedLen d.frameLen)
    let r := cx.qRing true q
    if cx.cplRoom r = false then (cx.stall r (.tx q), false)
    else match cx.reserve n with
      | (cx, false) =>
        let cx := cx.when (!x.waited) fun cx => cx.inc Cnt.CH_CNT_GR_RESERVE_WAIT
        (cx.setTxq q { x with waited := true }, false)
      | (cx, true) =>
        let cx := (cx.reserveCpl r (.tx q)).1
        let e := cx.enter (cx.fld (Reg.CH_TXQ_CTX q) F.CH_TXQ_CTX_CTX) (cx.fld (Reg.CH_TXQ_MAP q) F.CH_TXQ_MAP_PORT)
        (e.2.setTxq q { e.2.txq q with storing := some e.1, waited := false }, true)

/-- The first of the queues, in turn, whose frame can start. -/
def Cx.txStartFirst (cx : Cx) : List Nat → Cx
  | [] => cx
  | q :: qs =>
    match cx.txStart q with
    | (cx, true) => cx.setRings { cx.ch.rings with turn := (q + 1) % 256 }
    | (cx, false) => cx.txStartFirst qs

/-- TX_FRAME_START. -/
def execTxFrameStart (c : ChanId) (s : State) : Out :=
  s.onChan c fun cx =>
    if cx.ringsRun then cx.txStartFirst ((List.range 256).map fun i => (cx.ch.rings.turn + i) % 256) else cx

/-- The chain of a frame is consumed (R365). -/
def Cx.consumeChain (cx : Cx) (q n : Nat) : Cx :=
  let x := cx.txq q
  ((cx.setTxq q { x with descs := if cx.qEn true q then x.descs.drop n else [], storing := none }).put
    (qHead true q) (cx.get (qHead true q) + BitVec.ofNat 32 n)).add Cnt.CH_CNT_TX_DESC n

/-- What the descriptors of a chain ask for. -/
def Cx.chainSrc (cx : Cx) (q : Nat) (d : TxDesc) : TxSrc :=
  ⟨q, cx.get (qHead true q), d.nbuf, d.frameLen, d.tsReq, d.tsTag, d.cookie⟩

/-- The queue goes on to its next chain. -/
def Cx.takeNext (cx : Cx) (q : Nat) : Cx := if cx.fetches true q then cx.takeSlots true q else cx

/-- TX_FRAME_STORED: the frame's last byte is stored. A frame of a queue taken down meanwhile is flushed
(R377). (DEDUCED, log entry 64) -/
def Cx.txStored (cx : Cx) (q : Nat) (bytes : List Byte) (ecc : EccFault) : Cx :=
  let x := cx.txq q
  match x.storing, x.chain with
  | some e, some (d, _) =>
    let frame := padFcs ((bytes ++ List.replicate d.frameLen 0).take d.frameLen)
    let src := cx.chainSrc q d
    let gone := !cx.qEn true q
    match cx.storeFrame Owner.usRing true frame with
    | (none, cx) => cx
    | (some cell, cx) =>
      let cx := (cx.consumeChain q d.nbuf).idleRestart
      if gone then
        (((cx.releaseChain Owner.usRing cell).inc Cnt.CH_CNT_TX_FLUSHED).txComplete src CplStatus.flushed 0
          none).flyOut e.slot
      else
        (cx.outcome
          { entry := e, up := true, client := Owner.usRing, cell := cell, bytes := frame,
            plain := (bytes ++ List.replicate d.frameLen 0).take d.frameLen, ts := cx.time8,
            source := q, queue := q, src := some src, launch := if d.ltEn then some d.launch else none } ecc).takeNext q
  | _, _ => cx

def execTxFrameStored (c : ChanId) (q : Fin 256) (bytes : List Byte) (ecc : EccFault) (s : State) : Out :=
  s.onChanEcc c ecc fun cx => if cx.finishing then cx.txStored q bytes ecc else cx

/-- A read of a frame's buffers fails; `stored` holds the bytes stored by then (R367, R590). -/
def Cx.txReadError (cx : Cx) (q : Nat) (stored : List Byte) (code : Byte) : Cx :=
  let x := cx.txq q
  match (if code = 0 then none else x.storing), x.chain with
  | some e, some (d, _) =>
    if fatalCode code then cx.hostFatal code false
    else
      let cx := cx.onHl fun h => h.nonFatal code cx.id.val false
      let src := cx.chainSrc q d
      let n := cellsFor (storedLen d.frameLen)
      let part := stored.take (d.frameLen - 1)
      let cx := match cx.storeFrame Owner.usRing true part with
        | (some cell, cx) => if part.isEmpty then cx else cx.releaseChain Owner.usRing cell
        | (none, cx) => cx
      let cx := (cx.unreserve (n - cellsFor part.length)).consumeChain q d.nbuf
      (((cx.inc Cnt.CH_CNT_TX_READ_ERR).txComplete src CplStatus.hostReadErr 0 none).flyOut e.slot).takeNext q
  | _, _ => cx

/-- TX_BUFFER_READ_ERROR. -/
def execTxBufferReadError (c : ChanId) (q : Fin 256) (stored : List Byte) (code : Byte) (s : State) : Out :=
  s.onChan c fun cx => if cx.finishing then cx.txReadError q stored code else cx

/-! ### Write-out of receive frames (R371 to R374, R393) -/

/-- Mark the first `n` unused buffers as used. -/
def useBufs : Nat → List RxBuf → List RxBuf
  | _, [] => []
  | n, b :: l => if b.used then b :: useBufs n l
    else match n with
      | 0 => b :: l
      | k + 1 => { b with used := true } :: useBufs k l

/-- The frame's bytes go into its buffers in order (R371). -/
def Cx.writeBufs (cx : Cx) : List RxBuf → List Byte → Cx
  | [], _ => cx
  | b :: l, bs => (cx.hostWrite .rxData b.addr.toNat (bs.take b.len)).writeBufs l (bs.drop b.len)

/-- The head frame of a receive queue is written out, followed by its completion (R371, R385, R386). A frame
with a lost cell is dropped (R339). -/
def Cx.rxWriteOut (cx : Cx) (q : Nat) (ecc : EccFault) : Cx :=
  let x := cx.rxq q
  match x.frames, cx.rxNeed q with
  | d :: rest, some n =>
    match cx.checkChain d.frame.cell with
    | (cx, .stopped) => cx
    | (cx, .lost) =>
      ((cx.setRxq q { x with frames := rest, holding := false }).releaseFrame d.frame).rxHeadCheck q
    | (cx, .whole) =>
      let r := cx.qRing false q
      match cx.reserveCpl r (.rx q) with
      | (cx, false) => cx
      | (cx, true) =>
        let free := (x.bufs.filter fun b => !b.used).take n
        let w := cx.deliverLen d.frame d.trunc
        let e := cx.eccCells ecc d.frame.cell 0 w
        let cx := e.1.writeBufs free ((e.1.frameBytes d.frame.cell d.frame.len).take w)
        let cx := cx.setRxq q { x with frames := rest, holding := false, bufs := useBufs n x.bufs }
        let head := free.headD ⟨0, 0, 0, 0, false⟩
        let status := if e.2 then CplStatus.cellErr else d.status
        let info := if e.2 && d.status != CplStatus.ok then 0 else d.info
        let cx := (cx.inc Cnt.CH_CNT_RX_FRAMES).cplDue
          { ring := r, status := status, tx := false, queue := q, nbuf := n, mirror := d.mirror, trunc := d.trunc,
            copy := d.copy, ftype := d.frame.ftype, info := info, len := w, index := head.idx,
            cookie := head.cookie, time := d.frame.ts, tsValid := true }
        ((cx.releaseFrame d.frame).idleRestart.takeSlots false q)
  | _, _ => cx

/-- RX_WRITE_OUT. -/
def execRxWriteOut (c : ChanId) (q : Fin 256) (ecc : EccFault) (s : State) : Out :=
  s.onChanEcc c ecc fun cx => if cx.ringsRun then cx.rxWriteOut q ecc else cx

/-- RX_HOLD_EXPIRY: the hold of the head frame ends with its need unmet (R372). (DEDUCED, log entry 116) -/
def Cx.rxHoldEnd (cx : Cx) (q : Nat) : Cx :=
  if (cx.rxq q).holding && (cx.rxNeed q).isNone then
    (cx.rxDropHead q Cnt.CH_CNT_RX_NO_HOST_BUFFER).rxHeadCheck q
  else cx

/-- DEDUCED, log entry 116. -/
def execRxHoldExpiry (c : ReadBy) (q : Fin 256) (s : State) : Out :=
  s.onChanEcc c.chan c.ecc fun cx => if cx.ringsRun then cx.rxHoldEnd q else cx

/-! ### Completion rings (R391 to R395, R400) -/

def Cx.crEn (cx : Cx) (r : Nat) : Bool := cx.flg (Reg.CH_CRING_CTL r) F.CH_CRING_CTL_EN
def Cx.crIdle (cx : Cx) (r : Nat) : Bool := cx.flg (Reg.CH_CRING_CTL r) F.CH_CRING_CTL_IDLE

/-- Every queue whose CRING names the ring has IDLE = 1 (R392). -/
def Cx.crUsersIdle (cx : Cx) (r : Nat) : Bool :=
  (List.range 256).all fun q =>
    (cx.qRing false q != r || cx.qIdle false q) && (cx.qRing true q != r || cx.qIdle true q)

/-- A write of CH_CRING_CTL (R392). (DEDUCED, log entry 15; DESIGN CHOICE, log entry 161) -/
def Cx.crCtlWrite (cx : Cx) (r : Nat) (v : Word) : Cx :=
  let a := Reg.CH_CRING_CTL r
  let free := !cx.crEn r && cx.crIdle r
  let change := getF v F.CH_CRING_CTL_SIZE_LOG2 != cx.fld a F.CH_CRING_CTL_SIZE_LOG2 ||
    getB v F.CH_CRING_CTL_LONG != cx.flg a F.CH_CRING_CTL_LONG
  let cx := cx.when free fun cx =>
    (cx.setf a F.CH_CRING_CTL_SIZE_LOG2 (getF v F.CH_CRING_CTL_SIZE_LOG2)).setf a F.CH_CRING_CTL_LONG
      (getF v F.CH_CRING_CTL_LONG)
  let cx := (cx.setf a F.CH_CRING_CTL_VECTOR (getF v F.CH_CRING_CTL_VECTOR)).setf a F.CH_CRING_CTL_NOTIFY
    (getF v F.CH_CRING_CTL_NOTIFY)
  let en := getB v F.CH_CRING_CTL_EN
  let on := cx.crEn r
  let ok := if en then cx.crIdle r && decide (6 ≤ cx.fld a F.CH_CRING_CTL_SIZE_LOG2) &&
      cx.flg Reg.CH_DB_BASE_LO F.CH_DB_BASE_LO_VALID
    else cx.crUsersIdle r
  let k := 32 + r / 16
  let was := cx.lineWatched k
  let start := cx.get (Reg.CH_CRING_START r)
  let cx :=
    if en == on || !ok then cx
    else if en then
      let cx := (cx.put (Reg.CH_CRING_PROD r) start).put (Reg.CH_CRING_CONS r) start
      (((cx.setf a F.CH_CRING_CTL_IDLE 0).setf a F.CH_CRING_CTL_EN 1).watchChange k was).trigger k
    else ((cx.setf a F.CH_CRING_CTL_IDLE 1).setf a F.CH_CRING_CTL_EN 0).watchChange k was
  cx.when ((change && !free) || (en != on && !ok)) fun cx => cx.configEvent a

/-- CRING_ENABLE and CRING_DISABLE: a write of CH_CRING_CTL with EN = 1, and with EN = 0. -/
def execCringEnable (c : ChanId) (r : Fin 64) (v : Word) (s : State) : Out :=
  s.coreWrite c fun cx => cx.crCtlWrite r (setF v F.CH_CRING_CTL_EN 1)
def execCringDisable (c : ChanId) (r : Fin 64) (v : Word) (s : State) : Out :=
  s.coreWrite c fun cx => cx.crCtlWrite r (setF v F.CH_CRING_CTL_EN 0)

/-- CRING_ARM: a write of CH_CRING_ARM. -/
def execCringArm (c : ChanId) (r : Fin 64) (t : Word) (s : State) : Out :=
  s.coreWrite c fun cx => cx.cringArm r t

/-- A held completion of a ring is written. Where buffers leave a receive queue's list with it, the queue takes the next
slots (R370, R394). -/
def Cx.heldRelease (cx : Cx) (r : Nat) : Cx :=
  if cx.crFree r = false then cx
  else match takeHeld r cx.ch.rings.hold with
    | none => cx
    | some (e, _) =>
      let cx := cx.heldWrite r
      if !e.tx && cx.fetches false e.queue then cx.takeSlots false e.queue else cx

/-- HELD_COMPLETION_WRITE. -/
def execHeldCompletionWrite (c : ReadBy) (r : Fin 64) (s : State) : Out :=
  s.onChanEcc c.chan c.ecc fun cx => if cx.ch.coreStopped || cx.subStopped 2 then cx else cx.heldRelease r

/-- Buffers owed a FLUSHED completion are completed as far as reservations go (R377, R393). (DEDUCED, log entry 65) -/
def Cx.flushBufs (cx : Cx) (q : Nat) : Cx :=
  let l := (cx.rxq q).flush
  l.foldl (fun cx b => cx.rxFlushBuf q b) (cx.setRxq q { cx.rxq q with flush := [] })

/-- The item still waits: a take-down may have dropped it. -/
def Cx.itemWaits (cx : Cx) : StallItem → Bool
  | .rx q => !(cx.rxq q).frames.isEmpty
  | .tx q => cx.qEn true q && (cx.txq q).chain.isSome
  | .flush q => !(cx.rxq q).flush.isEmpty

/-- Queues of a ring that owe FLUSHED completions which wait. -/
def Cx.flushRing (cx : Cx) (r : Nat) : Cx :=
  ((cx.ch.rings.rxq.filter fun e => !e.2.flush.isEmpty).map Prod.fst).foldl
    (fun cx q => if cx.qRing false q = r then cx.flushBufs q else cx) cx

/-- CPL_STALL_RELEASE: the stalled item of a ring starts, if it can now, and what waits behind it to be flushed
(R395). An item that a take-down dropped no longer stalls the ring. (DEDUCED, log entry 65) -/
def Cx.stallRelease (cx : Cx) (r : Nat) (ecc : EccFault) : Cx :=
  if cx.cplRoom r = false then cx
  else
    let cx := match Sparse.get (fun _ => none) cx.ch.rings.stalled r with
      | none => cx
      | some item =>
        if cx.itemWaits item then
          match item with
          | .rx q => cx.rxWriteOut q ecc
          | .tx q => (cx.txStart q).1
          | .flush q => cx.flushBufs q
        else cx.unstall r
    cx.flushRing r

def execCplStallRelease (c : ChanId) (r : Fin 64) (ecc : EccFault) (s : State) : Out :=
  s.onChanEcc c ecc fun cx => if cx.ringsRun then cx.stallRelease r ecc else cx

end Sys2Proof.Machine
end

