-- ==== Sys2Proof/Machine/Events.lean ====
section
/-!
DEFINITION. The rows of the event rings and vectors (R403 to R408).
-/

namespace Sys2Proof.Machine

open Sys2Proof

def Headland.evrEn (h : Headland) (n : Nat) : Bool := h.flg (Reg.HL_EVR_CTL n) F.HL_EVR_CTL_EN
def Headland.evrSize (h : Headland) (n : Nat) : Nat := 2 ^ h.fld (Reg.HL_EVR_CTL n) F.HL_EVR_CTL_SIZE_LOG2
def Headland.evrUsed (h : Headland) (n : Nat) : Nat :=
  idxDiff (h.get (Reg.HL_EVR_PROD n)) (h.get (Reg.HL_EVR_CONS n))
def Headland.evrFree (h : Headland) (n : Nat) : Bool := decide (h.evrUsed n < h.evrSize n)

def Headland.evrAux (h : Headland) (n : Nat) : EvrAux := Sparse.get (fun _ => ⟨false, false, false⟩) h.evr n
def Headland.setEvrAux (h : Headland) (n : Nat) (a : EvrAux) : Headland :=
  { h with evr := Sparse.set (fun _ => ⟨false, false, false⟩) h.evr n a }

/-- The bytes of a record (R404). -/
def EvRec.bytes (r : EvRec) (own : Nat) : List Byte :=
  leBytes 4 (r.source % 512 + r.count % 256 * 2 ^ 16 + own * 2 ^ 31) ++ leBytes 4 r.detail.toNat ++
    leBytes 8 r.tick.toNat

/-- A source stops being pending (R403). -/
def Headland.notPending (h : Headland) (src : Nat) : Headland := h.setf (Reg.HL_EVSRC src) F.HL_EVSRC_PENDING 0

/-- A record takes its ring's next slot: the items that stand in its place in the stream, a data write and the
vector that R407 sends behind it. -/
def Headland.evrTake (h : Headland) (r : EvRec) : Headland × List StreamItem :=
  let n := r.ring
  let log2 := h.fld (Reg.HL_EVR_CTL n) F.HL_EVR_CTL_SIZE_LOG2
  let p := h.get (Reg.HL_EVR_PROD n)
  let a := slotAddr (h.get (Reg.HL_EVR_BASE_LO n)) (h.get (Reg.HL_EVR_BASE_HI n)) 16 log2 p
  let h := (((h.put (Reg.HL_EVR_PROD n) (p + 1)).inc Cnt.HL_CNT_EV_RECORDS).notPending r.source)
  let item := StreamItem.data .event (BitVec.ofNat 64 a) (r.bytes (phaseOf p log2))
  let vec := StreamItem.vector (h.fld (Reg.HL_EVR_CTL n) F.HL_EVR_CTL_VECTOR)
  let x := h.evrAux n
  if h.flg (Reg.HL_EVR_CTL n) F.HL_EVR_CTL_NOTIFY = false then (h, [item])
  else if h.fld (Reg.HL_EVR_MOD n) F.HL_EVR_MOD_HOLDOFF = 0 then (h, [item, vec])
  else if x.timer then (h.setEvrAux n { x with noted := true }, [item])
  else (h.setEvrAux n { x with timer := true, noted := false }, [item, vec])

/-- A record that finds its ring full is deferred; the first since the ring last had room raises source 466
(R405). -/
def Headland.defer (h : Headland) (r : EvRec) : Headland :=
  let n := r.ring
  let h := (({ h with deferred := h.deferred ++ [r] } : Headland).syncDeferred n).inc Cnt.HL_CNT_EV_DEFERRED
  let x := h.evrAux n
  if x.full then h else (h.setEvrAux n { x with full := true }).raise Ev.evrFull n

/-- What becomes of a record at the head of its stream (R405, R406): the items in its place. -/
def Headland.recordHead (h : Headland) (r : EvRec) : Headland × List StreamItem :=
  if h.evrEn r.ring = false then ((h.notPending r.source).inc Cnt.HL_CNT_EV_DISCARD, [])
  else if h.evrFree r.ring then h.evrTake r
  else (h.defer r, [])

/-- The head of the Headland stream is a record. -/
def Headland.ownHead (h : Headland) : Headland :=
  match h.stream.items with
  | .event r :: rest =>
    let x := ({ h with stream := { h.stream with items := rest } } : Headland).recordHead r
    let d := drainHead (x.2 ++ x.1.stream.items) x.1
    { d.2 with stream := { x.1.stream with items := d.1 } }
  | _ => h

/-- The head of a channel's stream is a record. -/
def Cx.ownHead (cx : Cx) : Cx :=
  match cx.ch.stream.items with
  | .event r :: rest =>
    let x := cx.hl.recordHead r
    let d := drainHead (x.2 ++ rest) x.1
    { cx with ch := { cx.ch with stream := { cx.ch.stream with items := d.1 } }, hl := d.2 }
  | _ => cx

/-- EVENT_RECORD_HEAD; `none` is the Headland stream. -/
def execEventRecordHead (stream : Option ChanId) (s : State) : Out :=
  match stream with
  | some c => s.onChan c Cx.ownHead
  | none => s.onHl Headland.ownHead

/-- EVENT_DEFERRED_WRITE: the oldest deferred record of a ring, once it has a free slot (R405).
(DEDUCED, log entry 69) -/
def Headland.deferredWrite (h : Headland) (n : Nat) : Headland :=
  match (if h.evrEn n && h.evrFree n then h.deferred.find? fun r => r.ring == n else none) with
  | some r =>
    let h := ({ h with deferred := h.deferred.filter fun x => x.source != r.source } : Headland).syncDeferred n
    let x := h.evrTake r
    x.1.pushAll x.2
  | none => h

def execEventDeferredWrite (n : Fin 16) (s : State) : Out := s.onHl fun h => h.deferredWrite n

/-- Records deferred on a ring are discarded (R406). -/
def Headland.dropDeferred (h : Headland) (n : Nat) : Headland :=
  let l := h.deferred.filter fun r => r.ring == n
  let h := ({ h with deferred := h.deferred.filter fun r => r.ring != n } : Headland).syncDeferred n
  h.discardEvents (l.map .event)

/-- A write of HL_EVR_CTL (R392, R405, R406). (DEDUCED, log entry 69) -/
def Headland.evrCtlWrite (h : Headland) (n : Nat) (v : Word) : Headland :=
  let a := Reg.HL_EVR_CTL n
  let h := h.when (!h.evrEn n) fun h => h.setf a F.HL_EVR_CTL_SIZE_LOG2 (getF v F.HL_EVR_CTL_SIZE_LOG2)
  let h := (h.setf a F.HL_EVR_CTL_VECTOR (getF v F.HL_EVR_CTL_VECTOR)).setf a F.HL_EVR_CTL_NOTIFY
    (getF v F.HL_EVR_CTL_NOTIFY)
  let en := getB v F.HL_EVR_CTL_EN
  let log2 := h.fld a F.HL_EVR_CTL_SIZE_LOG2
  if en == h.evrEn n then h
  else if en then
    if 6 ≤ log2 ∧ log2 ≤ 12 then
      let st := h.get (Reg.HL_EVR_START n)
      ((((h.put (Reg.HL_EVR_PROD n) st).put (Reg.HL_EVR_CONS n) st).setf a F.HL_EVR_CTL_IDLE 0).setf a
        F.HL_EVR_CTL_EN 1).setEvrAux n ⟨false, false, false⟩
    else h
  else
    (((h.setf a F.HL_EVR_CTL_IDLE 1).setf a F.HL_EVR_CTL_EN 0).setEvrAux n ⟨false, false, false⟩).dropDeferred n

/-- EVR_ENABLE and EVR_DISABLE: a write of HL_EVR_CTL with EN = 1, and with EN = 0. -/
def execEvrEnable (n : Fin 16) (v : Word) (s : State) : Out :=
  s.hlWrite fun h => h.evrCtlWrite n (setF v F.HL_EVR_CTL_EN 1)
def execEvrDisable (n : Fin 16) (v : Word) (s : State) : Out :=
  s.hlWrite fun h => h.evrCtlWrite n (setF v F.HL_EVR_CTL_EN 0)

/-- EVR_CONS_WRITE: a write of HL_EVR_CONS (R390, R405). -/
def Headland.evrCons (h : Headland) (n : Nat) (t : Word) : Headland :=
  if idxDiff t (h.get (Reg.HL_EVR_CONS n)) ≤ h.evrUsed n then
    let h := h.put (Reg.HL_EVR_CONS n) t
    if h.evrFree n then h.setEvrAux n { h.evrAux n with full := false } else h
  else h.inc Cnt.HL_CNT_EV_BAD_CONS

def execEvrConsWrite (n : Fin 16) (t : Word) (s : State) : Out := s.hlWrite fun h => h.evrCons n t

/-- EVR_HOLDOFF_EXPIRY: the moderation timer of a ring ends (R407). (DEDUCED, log entry 69) -/
def Headland.holdoffEnd (h : Headland) (n : Nat) : Headland :=
  let x := h.evrAux n
  if x.timer = false then h
  else if x.noted then
    (h.setEvrAux n { x with noted := false }).push (.vector (h.fld (Reg.HL_EVR_CTL n) F.HL_EVR_CTL_VECTOR))
  else h.setEvrAux n { x with timer := false }

def execEvrHoldoffExpiry (n : Fin 16) (s : State) : Out := s.onHl fun h => h.holdoffEnd n

/-- A write of HL_VEC_MASK_LO or HL_VEC_MASK_HI (R408): each bit that it clears while the vector is pending sends
one message. -/
def Headland.vecMask (h : Headland) (hi : Bool) (v : Word) : Headland :=
  let m := if hi then Reg.HL_VEC_MASK_HI else Reg.HL_VEC_MASK_LO
  let p := if hi then Reg.HL_VEC_PEND_HI else Reg.HL_VEC_PEND_LO
  (List.range 32).foldl (fun h b =>
    if h.flg p ⟨b, 1⟩ && !h.flg m ⟨b, 1⟩ then (h.setf p ⟨b, 1⟩ 0).sendVector (b2n hi * 32 + b) else h) (h.put m v)

/-- VEC_UNMASK. -/
def execVecUnmask (hi : Bool) (v : Word) (s : State) : Out := s.hlWrite fun h => h.vecMask hi v

end Sys2Proof.Machine
end

