-- ==== Sys2Proof/Machine/Spaces.lean ====
section
/-!
DEFINITION. The channel spaces BUFFER, TREE, CONTEXT and STAGING (R505 to R508), as the bulk mover and the
indirect windows read and write them, with the protections of R269 and R307.
-/

namespace Sys2Proof.Machine

open Sys2Proof

/-! Spaces (R505). -/
namespace Space
def host : Nat := 0
def buffer : Nat := 1
def tree : Nat := 2
def context : Nat := 3
def staging : Nat := 4
def fwImage : Nat := 5
def log : Nat := 6
end Space

/-- Size of a space in bytes; zero for a reserved one. -/
def spaceSize (sp : Nat) : Nat :=
  if sp = Space.host then 2 ^ 64
  else if sp = Space.buffer then 0x300000
  else if sp = Space.tree then 0x200000
  else if sp = Space.context then 0x180000
  else if sp = Space.staging then 0x40000
  else if sp = Space.fwImage then 0x200000
  else if sp = Space.log then 0x10000
  else 0

/-- Spaces that belong to a channel. -/
def chanSpace (sp : Nat) : Bool := decide (1 ≤ sp) && decide (sp ≤ 4)

/-! ### Reading -/

/-- A byte of CONTEXT space whose layout the manual does not give: the storage of the free ring, and the queue, ring and
counter state (R268, R506); and the parser's resume state, once the parser has written it (R269).
(DEDUCED, log entry 89) -/
def Cx.opaqueCtx (cx : Cx) (a : Nat) : Bool :=
  Sparse.get (fun _ => false) cx.ch.ds.resume a ||
    (decide (0x148000 ≤ a) && decide (a < 0x14E000)) || decide (0x15A400 ≤ a)

/-- `n` bytes of CONTEXT space. (DEDUCED, log entry 89) -/
def Cx.ctxBytes (cx : Cx) (a n : Nat) : List Byte :=
  (List.range n).map fun i =>
    if cx.opaqueCtx (a + i) then Config.opaqueByte (a + i) cx.hl.stu.tick else Sparse.get zeroByte cx.ch.ctxm (a + i)

/-- `n` bytes of a channel space. -/
def Cx.spaceBytes (cx : Cx) (sp a n : Nat) : List Byte :=
  if sp = Space.buffer then Sparse.bytes cx.ch.buf a n
  else if sp = Space.tree then Sparse.bytes cx.ch.tree a n
  else if sp = Space.context then cx.ctxBytes a n
  else Sparse.bytes cx.ch.stg a n

/-- The ECC error that shows when `n` bytes of a channel space are read. Answers whether the read is good. -/
def Cx.spaceEcc (cx : Cx) (ecc : EccFault) (sp a n : Nat) : Cx × Bool :=
  if sp = Space.tree then
    cx.eccRead ecc ((List.range ((a % 32 + n + 31) / 32)).map fun i => a / 32 + i) []
  else if sp = Space.context then cx.eccRead ecc [] [(a, n)]
  else if sp = Space.buffer then
    let hit (i : Nat) : Bool := decide (a / 256 ≤ i) && decide (i ≤ (a + n - 1) / 256)
    if (List.range ((a % 256 + n + 255) / 256)).any fun k => cx.badCell (a / 256 + k) then
      ((cx.countUE (Reg.CH_GR_ERR (cx.bufBank (a / 256 / 512)))).inc Cnt.CH_CNT_GR_ECC_UNCORR, false)
    else match ecc with
    | .bufCe i => (if hit i.val then cx.countCE (Reg.CH_GR_ERR (cx.bufBank (i.val / 512))) else cx, true)
    | .bufUe i =>
      if hit i.val then
        ((cx.countUE (Reg.CH_GR_ERR (cx.bufBank (i.val / 512)))).inc Cnt.CH_CNT_GR_ECC_UNCORR, false)
      else (cx, true)
    | _ => (cx, true)
  else (cx, ecc != .otherUe)

/-! ### Writing -/

/-- Why a part of a write was discarded. -/
inductive Discard where
  | none
  | mode
  | protect
  deriving DecidableEq, Repr

def Discard.or (a b : Discard) : Discard := if a = .none then b else a

/-- The list with `bs` put at `i`. -/
def patch (old : List Byte) (i : Nat) (bs : List Byte) : List Byte :=
  old.take i ++ bs ++ old.drop (i + bs.length)

/-- A write of a whole row takes away what a migration left in it (R336). -/
def Cx.mendRow (cx : Cx) (a n : Nat) : Cx :=
  { cx with ch := { cx.ch with badRows := cx.ch.badRows.filter fun b => match b with
      | .ctxUe x => !(decide (a ≤ (rowOf x.val).1) && decide ((rowOf x.val).1 + 64 ≤ a + n))
      | _ => true } }
def Cx.mendNode (cx : Cx) (a n : Nat) : Cx :=
  { cx with ch := { cx.ch with badRows := cx.ch.badRows.filter fun b => match b with
      | .treeUe x => !(a == 32 * x.val && n == 32)
      | _ => true } }

/-- Write bytes inside one tree node (R307, R536). (DEDUCED, log entry 85) -/
def Cx.nodePut (cx : Cx) (a : Nat) (bs : List Byte) : Cx × Discard :=
  let base := a / 32 * 32
  let old := Sparse.bytes cx.ch.tree base 32
  if cx.preparing then (cx.configEvent a, .protect)
  else if writeAccepted cx.liveMask 240 false old (patch old (a - base) bs) then
    (({ cx with ch := { cx.ch with tree := Sparse.putBytes cx.ch.tree a bs } } : Cx).mendNode a bs.length, .none)
  else (cx.protectDiscard a, .protect)

/-- Write bytes inside one rule record (R307, R536). (DEDUCED, log entry 85) -/
def Cx.rulePut (cx : Cx) (a : Nat) (bs : List Byte) : Cx × Discard :=
  let base := a / 32 * 32
  let old := Sparse.bytes cx.ch.ctxm base 32
  if cx.preparing && decide (a % 32 < 16) then (cx.configEvent a, .protect)
  else if writeAccepted cx.liveMask 68 true old (patch old (a - base) bs) then
    ({ cx with ch := { cx.ch with ctxm := Sparse.putBytes cx.ch.ctxm a bs } }, .none)
  else (cx.protectDiscard a, .protect)

/-- A byte of a flow context may be written in the channel's mode (R269). -/
def Cx.ctxByteOk (cx : Cx) (o : Nat) : Bool :=
  decide (o < 8) || (decide (0x20 ≤ o) && decide (o < 0x30)) || !cx.modeIn [ModeCode.acquire, ModeCode.service]

/-- Write bytes inside one flow context (R269, R303). A byte of the parser's state that the host writes reads as
written. -/
def Cx.flowPut (cx : Cx) (a : Nat) (bs : List Byte) : Cx × Discard :=
  let i := a / 64
  let old := cx.ctxLe i 0 8
  let es := bs.zipIdx a
  let m := es.foldl (fun m e => if cx.ctxByteOk (e.2 % 64) then Sparse.set zeroByte m e.2 e.1 else m) cx.ch.ctxm
  let bad := es.any fun e => !cx.ctxByteOk (e.2 % 64)
  let resume := cx.ch.ds.resume.filter fun e => !(decide (a ≤ e.1) && decide (e.1 < a + bs.length) && cx.ctxByteOk (e.1 % 64))
  let cx : Cx := ({ cx with ch := { cx.ch with ctxm := m, ds := { cx.ch.ds with resume := resume } } } : Cx).mendRow a bs.length
  (cx.pinChange old (cx.ctxLe i 0 8), if bad then .mode else .none)

/-- The free cells among the eight whose entries hold a CONTEXT address, as the free store grants from the bitmap: all of
them in BITMAP mode, those not yet scanned in GLEAN mode, and none in RING mode (R325, R326, R331). -/
def Cx.tableFree (cx : Cx) (a : Nat) : Nat :=
  let i := (a - cellAddr 0) / 32 * 8
  (((List.range 8).map fun k => i + k).filter fun j => !(cx.cell j).alloc &&
    (cx.grMode == GrMode.bitmap || (cx.grMode == GrMode.glean && decide (cx.grPos ≤ j)))).length

/-- Write bytes of the cell table inside 32: the bitmap follows the STATE bits, and FREE_COUNT the bitmap (R325).
(DEDUCED, log entry 61) -/
def Cx.tablePut (cx : Cx) (a : Nat) (bs : List Byte) : Cx :=
  let old := cx.tableFree a
  let cx : Cx := { cx with ch := { cx.ch with ctxm := Sparse.putBytes cx.ch.ctxm a bs } }
  let cx := cx.moveCells ((List.range 8).map fun k => (a - cellAddr 0) / 32 * 8 + k)
  cx.setFree (cx.freeCount + cx.tableFree a - old)

/-- Write bytes inside one object of CONTEXT space. (DEDUCED, log entry 61) -/
def Cx.ctxObjPut (cx : Cx) (a : Nat) (bs : List Byte) : Cx × Discard :=
  if a < 0x100000 then cx.flowPut a bs
  else if a < 0x140000 then cx.rulePut a bs
  else if a < 0x148000 then (cx.putFrag ((a - 0x140000) / 32) (a % 32) bs, .none)
  else if cellAddr 0 ≤ a ∧ a < cellAddr numCells then (cx.tablePut a bs, .none)
  else ({ cx with ch := { cx.ch with ctxm := Sparse.putBytes cx.ch.ctxm a bs } }, .none)

/-- Write bytes of TREE or CONTEXT space object by object. -/
def Cx.objPuts (cx : Cx) (tree : Bool) : Nat → Nat → List Byte → Cx × Discard
  | 0, _, _ => (cx, .none)
  | _, _, [] => (cx, .none)
  | f + 1, a, bs =>
    let size := if !tree && decide (a < 0x100000) then 64 else 32
    let n := size - a % size
    let r := if tree then cx.nodePut a (bs.take n) else cx.ctxObjPut a (bs.take n)
    let r' := r.1.objPuts tree f (a + n) (bs.drop n)
    (r'.1, r.2.or r'.2)

/-- Write bytes of a channel space; the mode has been checked. -/
def Cx.spacePut (cx : Cx) (sp a : Nat) (bs : List Byte) : Cx × Discard :=
  if sp = Space.tree then cx.objPuts true (bs.length + 1) a bs
  else if sp = Space.context then cx.objPuts false (bs.length + 1) a bs
  else if sp = Space.buffer then
    ({ cx with ch := cx.ch.bufPut a bs }, .none)
  else ({ cx with ch := { cx.ch with stg := Sparse.putBytes cx.ch.stg a bs } }, .none)

/-- BUFFER and STAGING may be written in the channel's mode (R508). -/
def Cx.bufModeOk (cx : Cx) : Bool := cx.modeIn [ModeCode.disabled, ModeCode.halted, ModeCode.handover]

/-- Claim a cell for the client IMPORT by its ID (R521): a grant, whose read of the entry can meet an error (R315) or an
inconsistency (R334). -/
def Cx.claim (cx : Cx) (i : Nat) : Cx × Bool :=
  match cx.tableRead [i] with
  | (cx, false) => (cx, false)
  | (cx, true) =>
    if (cx.cell i).alloc then (cx.inc Cnt.CH_CNT_GR_FAIL, false)
    else if (cx.cell i).inconsistent then (cx.halt Halt.granary i, false)
    else
      let cx := (cx.moveCells [i]).setCell i (Cell.granted Owner.imported)
      let cx := cx.setRing (cx.ch.gr.ring.filter fun j => j != i)
      ((cx.setFree (cx.freeCount - 1)).inc Cnt.CH_CNT_GR_ALLOC, true)

end Sys2Proof.Machine
end

