-- ==== Sys2Proof/Machine/Mover.lean ====
section
/-!
DEFINITION. The bulk mover (chapter 15): its sets, submission, chunks, results, completion and halts.
-/

namespace Sys2Proof.Machine

open Sys2Proof

def Headland.mv (h : Headland) (n : Nat) : Mover := Sparse.get (fun _ => Mover.idle) h.movers n
def Headland.setMv (h : Headland) (n : Nat) (m : Mover) : Headland :=
  { h with movers := Sparse.set (fun _ => Mover.idle) h.movers n m }

/-! STATE of a set. -/
namespace MvState
def idle : Nat := 0
def running : Nat := 1
def halted : Nat := 2
def finishing : Nat := 3
end MvState

/-! Halt codes (R518). -/
namespace MvHalt
def busErr : Nat := 1
def hostFatal : Nat := 2
def ecc : Nat := 3
def chanStopped : Nat := 4
def chanReset : Nat := 5
def badMode : Nat := 6
def noCell : Nat := 7
def aborted : Nat := 8
end MvHalt

def Headland.mvState (h : Headland) (n : Nat) : Nat := h.fld (Reg.MV_STATUS n) F.MV_STATUS_STATE
def Headland.setMvState (h : Headland) (n st : Nat) : Headland := h.setf (Reg.MV_STATUS n) F.MV_STATUS_STATE st
def Headland.mvPending (h : Headland) (n : Nat) : Bool := h.flg (Reg.MV_STATUS n) F.MV_STATUS_PENDING
def Headland.mvRefuse (h : Headland) (n code : Nat) : Headland := h.setf (Reg.MV_STATUS n) F.MV_STATUS_REFUSE code

/-! ### Shadow and submission (R502, R503) -/

/-- A write that would leave `w` in a shadow transfer register; while PENDING it is discarded (R503). One that leaves
every field as it is, is no write (R656). -/
def Headland.mvShadow (h : Headland) (n off : Nat) (w : Word) : Headland :=
  if h.mvPending n = false then h.put off w else if w = h.get off then h else h.mvRefuse n 1

def mvDword (h : Headland) (lo hi : Nat) : Nat := (h.get lo).toNat + 2 ^ 32 * (h.get hi).toNat
def mvCount (w : Word) : Nat := if w = 0 then 2 ^ 32 else w.toNat

/-- Source and destination are spaces of two channels: nothing passes from one channel to another but through host memory
(R31). (DEDUCED, log entry 147) -/
def crossing (ss ds sc dc : Nat) : Bool := chanSpace ss && chanSpace ds && sc != dc

/-- The first check of R503 that the shadow fails, 0 when none. MV_RES_ADDR is a multiple of 16, since its bits 3:0 are
reserved. (DEDUCED, log entries 88 and 147) -/
def Headland.mvCheck (h : Headland) (n : Nat) : Nat :=
  let sp := h.get (Reg.MV_SPACE n)
  let ss := getF sp F.MV_SPACE_SRC_SPACE
  let ds := getF sp F.MV_SPACE_DST_SPACE
  let src := mvDword h (Reg.MV_SRC_LO n) (Reg.MV_SRC_HI n)
  let dst := mvDword h (Reg.MV_DST_LO n) (Reg.MV_DST_HI n)
  let cnt := mvCount (h.get (Reg.MV_COUNT n))
  let word (s : Nat) : Bool := s == Space.tree || s == Space.context
  if 7 ≤ ss ∨ 7 ≤ ds ∨ ds = Space.log then 2
  else if (chanSpace ss ∧ 16 < getF sp F.MV_SPACE_SRC_CHAN) ∨ (chanSpace ds ∧ 16 < getF sp F.MV_SPACE_DST_CHAN) ∨
      crossing ss ds (getF sp F.MV_SPACE_SRC_CHAN) (getF sp F.MV_SPACE_DST_CHAN) then 3
  else if (word ss ∧ src % 8 ≠ 0) ∨ (word ds ∧ dst % 8 ≠ 0) ∨ ((word ss ∨ word ds) ∧ cnt % 8 ≠ 0) then 4
  else if spaceSize ss < src + cnt ∨ spaceSize ds < dst + cnt then 5
  else if h.flg (Reg.MV_CTL n) F.MV_CTL_IMPORT ∧ ds ≠ Space.buffer then 6
  else 0

/-- A write of MV_CTL with GO = 1 (R503). -/
def Headland.mvGo (h : Headland) (n : Nat) (v : Word) : Headland :=
  if h.mvPending n then h.mvRefuse n 1
  else
    let h := h.put (Reg.MV_CTL n) (v &&& 0x7E)
    let c := h.mvCheck n
    let h := h.mvRefuse n c
    if c = 0 then h.setf (Reg.MV_STATUS n) F.MV_STATUS_PENDING 1 else h

def execMoverGo (n : Fin 8) (v : Word) (s : State) : Out := s.hlWrite fun h => h.mvGo n v

/-! ### The active transfer -/

def Mover.len (m : Mover) : Nat := if m.count = 0 then 2 ^ 32 else m.count
def Mover.sp (m : Mover) (dst : Bool) : Nat :=
  getF m.space (if dst then F.MV_SPACE_DST_SPACE else F.MV_SPACE_SRC_SPACE)
def Mover.chan (m : Mover) (dst : Bool) : Nat :=
  getF m.space (if dst then F.MV_SPACE_DST_CHAN else F.MV_SPACE_SRC_CHAN)
def Mover.addr (m : Mover) (dst : Bool) : Nat := if dst then m.dst.toNat else m.src.toNat
def Mover.kind (m : Mover) : Nat := getF m.ctl F.MV_CTL_KIND

/-- The chunks move in descending address order (R512). -/
def Mover.desc (m : Mover) : Bool :=
  m.sp true == m.sp false && (!chanSpace (m.sp true) || m.chan true == m.chan false) &&
    decide (m.src.toNat < m.dst.toNat) && decide (m.dst.toNat < m.src.toNat + m.len)

/-- Bytes to the next 256 B boundary above, and from the one below. -/
def upTo (a : Nat) : Nat := 256 - a % 256
def downTo (a : Nat) : Nat := (a + 255) % 256 + 1

/-- The next chunk: its offset in the transfer and its length (R509). -/
def Mover.chunk (m : Mover) : Nat × Nat :=
  if m.desc then
    let e := m.len - m.done
    let n := min (min (downTo (m.src.toNat + e)) (downTo (m.dst.toNat + e))) e
    (e - n, n)
  else
    (m.done, min (min (upTo (m.src.toNat + m.done)) (upTo (m.dst.toNat + m.done))) (m.len - m.done))

/-- A 16-bit ones-complement sum of bytes in pairs; `odd`: the first byte is the less significant of its pair
(R513). -/
def onesSum (odd : Bool) : List Byte → Nat → Nat
  | [], a => a
  | b :: bs, a =>
    let x := a + (if odd then b.toNat else b.toNat * 256)
    onesSum (!odd) bs (x % 65536 + x / 65536)

/-- The check value over bytes read (R513, R514). -/
def Mover.check (m : Mover) (old : Word) (seen : List Byte) (skip : Nat) : Word :=
  if m.kind = 1 then
    BitVec.ofNat 32 ((seen.foldl (fun c b => crcShiftR 0x82F63B78 8 (c ^^^ b.toNat)) (m.init.toNat ^^^ 0xFFFFFFFF)) ^^^
      0xFFFFFFFF)
  else if m.kind = 2 then BitVec.ofNat 32 (onesSum (m.odd != (skip % 2 == 1)) seen (m.init.toNat % 65536))
  else old

/-- MV_RESULT over what has been moved so far. -/
def Headland.mvResult (h : Headland) (n : Nat) : Headland :=
  let m := h.mv n
  h.put (Reg.MV_RESULT n) (m.check (h.get (Reg.MV_RESULT n)) m.seen (if m.desc then m.len - m.seen.length else 0))

/-- Bytes before a host write of the active transfer, in its direction; all that has been moved where there is none. -/
def Mover.before (m : Mover) (w : Option MvWrite) : Nat :=
  match w.bind fun w => w.off.map fun o => if m.desc then m.len - (o + w.bytes.length) else o with
  | some k => min m.done k
  | none => m.done

/-- MV_REMAIN: the bytes not yet written. A host write is not complete before its response. -/
def Headland.mvRemain (h : Headland) (n : Nat) : Headland :=
  let m := h.mv n
  h.put (Reg.MV_REMAIN n) (BitVec.ofNat 32 (m.len - m.before (m.out.find? fun w => w.off.isSome)))

/-- RETRIES of the chunk that has failed: of a read, or else of the oldest host write. -/
def Headland.mvRetries (h : Headland) (n : Nat) : Headland :=
  let m := h.mv n
  h.setf (Reg.MV_STATUS n) F.MV_STATUS_RETRIES
    (if m.tries ≠ 0 then m.tries else match m.out with
      | w :: _ => w.tries
      | [] => 0)

/-- The set is the fallow manager's while a handover runs (R533). -/
def Headland.mvLent (h : Headland) (n : Nat) : Bool := h.ho.isSome && decide (6 ≤ n)

/-- An idle set takes its shadow (R504, R514). -/
def Headland.mvTake (h : Headland) (n : Nat) : Headland :=
  let ctl := h.get (Reg.MV_CTL n)
  let old := h.mv n
  let cont := getB ctl F.MV_CTL_CONT
  let res := h.get (Reg.MV_RESULT n)
  let m : Mover :=
    { src := BitVec.ofNat 64 (mvDword h (Reg.MV_SRC_LO n) (Reg.MV_SRC_HI n))
      dst := BitVec.ofNat 64 (mvDword h (Reg.MV_DST_LO n) (Reg.MV_DST_HI n))
      count := (h.get (Reg.MV_COUNT n)).toNat, space := h.get (Reg.MV_SPACE n), ctl := ctl
      res := BitVec.ofNat 64 (mvDword h (Reg.MV_RES_ADDR_LO n) (Reg.MV_RES_ADDR_HI n))
      done := 0, seen := []
      init := if cont then res else 0
      odd := cont && old.tailOdd, tailOdd := old.tailOdd
      out := old.out.map fun w => { w with off := none }
      tries := 0, readBack := false }
  let h := h.setMv n m
  let h := (h.setf (Reg.MV_STATUS n) F.MV_STATUS_PENDING 0).setMvState n MvState.running
  let h := (h.put (Reg.MV_DISCARDS n) 0).setf (Reg.MV_STATUS n) F.MV_STATUS_RETRIES 0
  let h := h.setf (Reg.MV_STATUS n) F.MV_STATUS_OVERLAP_DESC (b2n m.desc)
  (h.mvResult n).mvRemain n

/-! ### Halts (R514, R519) -/

/-- The set halts at a failing address of one side. `failed`: the host write that failed, which is given up. What has been
issued completes (R519). (DEDUCED, log entry 86) -/
def Headland.mvHaltAt (h : Headland) (n code : Nat) (dst : Bool) (fault : Nat) (failed : Option MvWrite) : Headland :=
  let m := h.mv n
  let k := m.before failed
  let seen := if m.desc then m.seen.drop (m.seen.length - k) else m.seen.take k
  let out := if failed.isSome then m.out.tail else m.out
  let m := { m with
    done := k, seen := seen, out := out.map fun w => { w with off := none }
    tailOdd := m.odd != (seen.length % 2 == 1), tries := 0, readBack := false }
  let h := ((h.setMv n m).mvResult n).mvRemain n
  let h := (h.put (Reg.MV_FAULT_LO n) (BitVec.ofNat 32 fault)).put (Reg.MV_FAULT_HI n) (BitVec.ofNat 32 (fault / 2 ^ 32))
  let h := ((h.setMvState n MvState.halted).setf (Reg.MV_STATUS n) F.MV_STATUS_HALT_CODE code).inc Cnt.HL_CNT_MV_HALT
  h.raise (Ev.moverHalt + n) (code + m.sp dst * 2 ^ 8 + m.chan dst * 2 ^ 12)

/-- The set halts at its next chunk, whose side `dst` fails. -/
def Headland.mvHalt (h : Headland) (n code : Nat) (dst : Bool) : Headland :=
  h.mvHaltAt n code dst ((h.mv n).addr dst + (h.mv n).chunk.1) none

/-- A channel reset halts the sets that use the channel (R518). -/
def Headland.mvChanReset (h : Headland) (c : Nat) : Headland :=
  (List.range 8).foldl (fun h n =>
    let m := h.mv n
    let uses (dst : Bool) : Bool := chanSpace (m.sp dst) && m.chan dst == c
    if h.mvState n = MvState.running ∧ (uses false ∨ uses true) then
      h.mvHalt n MvHalt.chanReset (!uses false)
    else h) h

/-! ### Chunks (R508, R509, R521) -/

/-- Why a chunk did not go through: the halt code and the side; or the state after it. -/
inductive MvStep where
  | moved (s : State)
  | halt (s : State) (code : Nat) (dst : Bool)

/-- A chunk's channel cannot be reached: its clock is stopped, its reset runs, or a fallow test does (R551). -/
def State.mvBlocked (s : State) (m : Mover) (dst : Bool) : Option Nat :=
  if chanSpace (m.sp dst) = false then none
  else if h : m.chan dst < 17 then
    if s.hl.resetRuns (m.chan dst) then some MvHalt.chanReset
    else if s.chans[m.chan dst].coreStopped ∨ s.chans[m.chan dst].mode = ModeCode.stop then some MvHalt.chanStopped
    else if s.hl.tested (m.chan dst) then some MvHalt.badMode
    else none
  else none

/-- Read a chunk: its bytes, and whether the read is good. `host` holds what host memory answers, in the order
of the chunks. (DEDUCED, log entry 87) -/
def State.mvRead (s : State) (m : Mover) (host : List Byte) (ecc : EccFault) (a n : Nat) :
    State × List Byte × Bool × List Byte :=
  let sp := m.sp false
  if sp = Space.host then
    (s, (host ++ (List.range n).map Config.freeByte).take n, true, host.drop n)
  else if sp = Space.fwImage then (s, Sparse.bytes s.hl.fwImage a n, ecc != .otherUe, host)
  else if sp = Space.log then (s, Sparse.bytes s.hl.log a n, ecc != .otherUe, host)
  else if hc : m.chan false < 17 then
    let c : ChanId := ⟨m.chan false, hc⟩
    let r := (s.view c).spaceEcc ecc sp a n
    (s.putView c r.1, (s.view c).spaceBytes sp a n, r.2, host)
  else (s, [], true, host)

/-- The chunk is the first of its transfer in a cell (R521). -/
def Mover.firstInCell (m : Mover) (a n : Nat) : Bool :=
  m.done == 0 || (if m.desc then (a + n) % 256 == 0 else a % 256 == 0)

/-- Write a chunk. Answers a halt code when it is not written, and whether a part was discarded. -/
def State.mvWrite (s : State) (n : Nat) (m : Mover) (a : Nat) (bs : List Byte) : State × Option Nat × Bool :=
  let sp := m.sp true
  if sp = Space.host then
    let w : MvWrite := ⟨BitVec.ofNat 64 a, bs, some (a - m.dst.toNat), false, 0⟩
    ({ s with hl := s.hl.setMv n { s.hl.mv n with out := m.out ++ [w] } }, none, false)
  else if sp = Space.fwImage then
    if s.hl.fw.locked then (s, none, true)
    else ({ s with hl := { s.hl with fwImage := Sparse.putBytes s.hl.fwImage a bs } }, none, false)
  else if hc : m.chan true < 17 then
    let c : ChanId := ⟨m.chan true, hc⟩
    let cx := s.view c
    if (sp = Space.buffer ∨ sp = Space.staging) ∧ cx.bufModeOk = false then (s, some MvHalt.badMode, false)
    else
      let claim := getB m.ctl F.MV_CTL_IMPORT && m.firstInCell a bs.length
      let r := if claim then cx.claim (a / 256) else (cx, true)
      if r.2 = false then (s.putView c r.1, some MvHalt.noCell, false)
      else
        let w := r.1.spacePut sp a bs
        (s.putView c w.1, none, w.2 != .none)
  else (s, none, false)

/-- One chunk of a running set. -/
def State.mvChunk (s : State) (n : Nat) (host : List Byte) (ecc : EccFault) : MvStep × List Byte :=
  let m := s.hl.mv n
  let k := m.chunk
  match s.mvBlocked m false, s.mvBlocked m true with
  | some code, _ => (.halt s code false, host)
  | none, some code => (.halt s code true, host)
  | none, none =>
    match s.mvRead m host ecc (m.src.toNat + k.1) k.2 with
    | (s, _, false, host) => (.halt s MvHalt.ecc false, host)
    | (s, bs, true, host) =>
      match s.mvWrite n m (m.dst.toNat + k.1) bs with
      | (s, some code, _) => (.halt s code true, host)
      | (s, none, disc) =>
        let h := if disc then s.hl.put (Reg.MV_DISCARDS n) (s.hl.get (Reg.MV_DISCARDS n) + 1) else s.hl
        let m := h.mv n
        let h := h.setMv n { m with
          done := m.done + k.2, seen := if m.desc then bs ++ m.seen else m.seen ++ bs, tries := 0 }
        let h := if m.sp true = Space.host then h else h.add Cnt.HL_CNT_MV_BYTES k.2
        (.moved { s with hl := (h.mvRemain n).mvRetries n }, host)

/-- The set has 8 chunks outstanding (R509). -/
def Mover.full (m : Mover) : Bool := decide (8 ≤ (m.out.filter fun w => !w.record).length)

/-- The transfer is at its end: every write is posted, and a barrier's read-back is issued (R515, steps 1 and 2). -/
def Headland.mvEnd (h : Headland) (n : Nat) : Headland :=
  let m := h.mv n
  ((h.setMv n { m with readBack := getB m.ctl F.MV_CTL_BARRIER }).mvResult n).setMvState n MvState.finishing

/-- Up to `good` chunks, and none beyond 8 outstanding (R509); a transfer at its end is finishing (R515). -/
def State.mvRun (s : State) (n : Nat) (ecc : EccFault) : Nat → List Byte → State
  | good, host =>
    if (s.hl.mv n).len ≤ (s.hl.mv n).done then { s with hl := s.hl.mvEnd n }
    else if (s.hl.mv n).full then { s with hl := s.hl.mvResult n }
    else match good with
      | 0 => { s with hl := s.hl.mvResult n }
      | g + 1 =>
        match s.mvChunk n host ecc with
        | (.moved s, host) => s.mvRun n ecc g host
        | (.halt s code dst, _) => { s with hl := s.hl.mvHalt n code dst }

/-- MOVER_START: `good` chunks go through before one fails. A set that the fallow manager uses does not take what the host
has submitted to it (R533). -/
def execMoverStart (n : Fin 8) (good : Nat) (host : List Byte) (ecc : EccFault) (s : State) : Out :=
  s.alive fun s =>
    if s.hl.mvState n = MvState.idle ∧ s.hl.mvPending n ∧ s.hl.mvLent n = false then
      ({ s with hl := s.hl.mvTake n } : State).mvRun n ecc good host
    else s

/-- A request of the set other than a host write fails with a code, on one side at an address: it is retried up to RETRY
times (R517), and a fatal code halts the set (R518, R590). Answers whether the set goes on. -/
def Headland.mvFail (h : Headland) (n : Nat) (code : Byte) (dst : Bool) (fault : Nat) : Headland × Bool :=
  let m := h.mv n
  let host := m.sp dst == Space.host
  if host && fatalCode code then ((h.fatalSeen code (18 + n) false).mvHaltAt n MvHalt.hostFatal dst fault none, false)
  else
    let h := h.when host fun h => h.nonFatal code (18 + n) false
    if m.tries < h.fld (Reg.MV_CFG n) F.MV_CFG_RETRY then
      (((h.setMv n { m with tries := m.tries + 1 }).mvRetries n).inc Cnt.HL_CNT_MV_RETRY, true)
    else (h.mvHaltAt n MvHalt.busErr dst fault none, false)

/-- The oldest host write of a set is answered with a code. A chunk is retried as R517 states, whatever the set does
meanwhile, and the result record as R589 states. A halted set issues no further request (R519).
(DEDUCED, log entry 148) -/
def Headland.mvWriteFail (h : Headland) (n : Nat) (w : MvWrite) (code : Byte) : Headland :=
  let m := h.mv n
  let halted := h.mvState n == MvState.halted
  let give (h : Headland) (why : Nat) : Headland :=
    if halted then h.setMv n { m with out := m.out.tail } else h.mvHaltAt n why true w.addr.toNat (some w)
  if fatalCode code then give (h.fatalSeen code (18 + n) true) MvHalt.hostFatal
  else
    let h := h.nonFatal code (18 + n) true
    let limit := if w.record then 3 else h.fld (Reg.MV_CFG n) F.MV_CFG_RETRY
    if !halted && decide (w.tries < limit) then
      let h := (h.setMv n { m with out := { w with tries := w.tries + 1 } :: m.out.tail }).mvRetries n
      if w.record then h else h.inc Cnt.HL_CNT_MV_RETRY
    else if w.record then give (h.fatalSeen code (18 + n) true) MvHalt.hostFatal
    else give h MvHalt.busErr

/-- A response to the oldest host write of a mover set: a chunk that is written counts (R522). -/
def Headland.moverResponse (h : Headland) (n : Nat) (code : Byte) : Headland :=
  let m := h.mv n
  match m.out with
  | [] => h
  | w :: l =>
    if code ≠ 0 then h.mvWriteFail n w code
    else
      let h := h.setMv n { m with out := l }
      let h := if w.record then h else h.add Cnt.HL_CNT_MV_BYTES w.bytes.length
      let h := if w.off.isSome then h.mvRemain n else h
      h.mvRetries n

/-- Address of the last written 8-byte word of the destination (R515). -/
def Mover.lastWord (m : Mover) : Nat := (if m.desc then m.dst.toNat else m.dst.toNat + m.len - 1) / 8 * 8

/-- The read-back of a barrier reaches its destination: an uncorrectable error there halts the set (R518), as does a
channel that cannot be reached. Answers whether it returns. -/
def State.mvReadBack (s : State) (n : Nat) (ecc : EccFault) : State × Bool :=
  let m := s.hl.mv n
  let a := m.lastWord
  let stop (s : State) (code : Nat) : State × Bool := ({ s with hl := s.hl.mvHaltAt n code true a none }, false)
  match s.mvBlocked m true with
  | some code => stop s code
  | none =>
    if hc : chanSpace (m.sp true) ∧ m.chan true < 17 then
      let c : ChanId := ⟨m.chan true, hc.2⟩
      let r := (s.view c).spaceEcc ecc (m.sp true) a 8
      let s := s.putView c r.1
      if r.2 then (s, true) else stop s MvHalt.ecc
    else if m.sp true ≠ Space.host ∧ ecc = .otherUe then stop s MvHalt.ecc
    else (s, true)

/-- MOVER_RETRY: the next chunk, or the read-back of a barrier, fails with a code (none with 0), and the transfer goes on
for `good` chunks. A failed host write is its response's (R517). (DEDUCED, log entry 86) -/
def State.mvRetry (s : State) (n : Nat) (code : Byte) (dst : Bool) (good : Nat) (host : List Byte)
    (ecc : EccFault) : State :=
  let m := s.hl.mv n
  if s.hl.mvLent n then s
  else if s.hl.mvState n = MvState.running then
    if code ≠ 0 ∧ dst ∧ m.sp true = Space.host then { s with hl := s.hl.moverResponse n code }
    else
      let r := if code = 0 then (s.hl, true) else s.hl.mvFail n code dst (m.addr dst + m.chunk.1)
      let s := { s with hl := r.1 }
      if r.2 then s.mvRun n ecc good host else s
  else if s.hl.mvState n = MvState.finishing ∧ m.readBack then
    if code = 0 then (s.mvReadBack n ecc).1 else { s with hl := (s.hl.mvFail n code true m.lastWord).1 }
  else s

/-- DEDUCED, log entry 86. -/
def execMoverRetry (n : Fin 8) (code : Byte) (dst : Bool) (good : Nat) (host : List Byte) (ecc : EccFault)
    (s : State) : Out :=
  s.alive fun s => s.mvRetry n code dst good host ecc

/-! ### Completion (R515, R516) -/

/-- The result record. -/
def Headland.mvRecord (h : Headland) (n : Nat) : List Byte :=
  let m := h.mv n
  leBytes 4 (h.get (Reg.MV_RESULT n)).toNat ++
    leBytes 4 (b2n m.desc * 2 ^ 8 + getF m.ctl F.MV_CTL_BARRIER * 2 ^ 9 +
      min 65535 (h.get (Reg.MV_DISCARDS n)).toNat * 2 ^ 16) ++
    leBytes 8 h.stu.tick.toNat

/-- Steps 3 and 4 of R515. The event record is raised when every write of the transfer, the result record's too, has been
issued, and so follows them (R399). -/
def Headland.mvDone (h : Headland) (n : Nat) : Headland :=
  let m := h.mv n
  let rec_ := if getB m.ctl F.MV_CTL_RESULT_WR then [(⟨m.res, h.mvRecord n, none, true, 0⟩ : MvWrite)] else []
  let h := h.setMv n { m with
    out := m.out ++ rec_, tailOdd := m.odd != (m.seen.length % 2 == 1), tries := 0, readBack := false }
  (((h.mvRetries n).setMvState n MvState.idle).inc Cnt.HL_CNT_MV_DONE).raise (Ev.moverDone + n)
    (h.get (Reg.MV_RESULT n)).toNat

/-- MOVER_DONE: with BARRIER the read-back returns, and the set completes (R515). -/
def State.mvFinish (s : State) (n : Nat) : State :=
  if s.hl.mvState n ≠ MvState.finishing then s
  else
    let r := if (s.hl.mv n).readBack then s.mvReadBack n .none else (s, true)
    if r.2 then { r.1 with hl := r.1.hl.mvDone n } else r.1

def execMoverDone (n : Fin 8) (s : State) : Out := s.alive fun s => s.mvFinish n

/-- MOVER_CLEAR (R520). -/
def Headland.mvClear (h : Headland) (n : Nat) : Headland :=
  if h.mvState n = MvState.halted then
    (h.setMvState n MvState.idle).setf (Reg.MV_STATUS n) F.MV_STATUS_HALT_CODE 0
  else h

/-- MOVER_ABORT (R520). -/
def Headland.mvAbort (h : Headland) (n : Nat) : Headland :=
  let st := h.mvState n
  let drop (h : Headland) : Headland := h.setf (Reg.MV_STATUS n) F.MV_STATUS_PENDING 0
  if st = MvState.running then drop (h.mvHalt n MvHalt.aborted (Config.abortSide h.stu.tick))
  else if st = MvState.idle then drop h
  else h

def execMoverClear (n : Fin 8) (s : State) : Out := s.hlWrite fun h => h.mvClear n

end Sys2Proof.Machine
end

