-- ==== Sys2Proof/Machine/HostPort.lean ====
section
/-!
DEFINITION. The rows of the host port: reads that time out (R587), and responses of data writes and their
timeouts (R589, R590, R655).
-/

namespace Sys2Proof.Machine

open Sys2Proof

/-! ### Reads -/

/-- HOST_READ_TIMEOUT: the read completes with code 0x04, handled by the rule of its requester. A read of a channel that
was issued before its channel reset began, or a doorbell read before the channel left the modes in which it is used, is
counted too, and nothing follows from it (R75, R354). (DEDUCED, log entry 114) -/
def State.readTimeout (s : State) (r : HostRead) : State :=
  let count (h : Headland) : Headland := h.inc Cnt.HL_CNT_HP_RD_TIMEOUT
  let onC (c : ChanId) (out live : Cx → Bool) (f : Cx → Cx) : State :=
    s.modChan c fun cx =>
      if out cx = false then cx
      else if s.hl.resetRuns c || !live cx then cx.onHl count
      else f (cx.onHl count)
  match r with
  | .ring c w =>
    onC c (fun cx => match w with
        | .doorbell _ => cx.readPending w
        | .desc tx q _ => cx.fetches tx q)
      (fun cx => match w with
        | .doorbell _ => !cx.modeIn [ModeCode.disabled, ModeCode.halted]
        | .desc _ _ _ => true)
      fun cx => cx.readError w 4
  | .txBuffer c q stored =>
    onC c (fun cx => (cx.txq q.val).storing.isSome) (fun cx => cx.finishing) fun cx => cx.txReadError q.val stored 4
  | .mover n good host =>
    let m := s.hl.mv n
    if (s.hl.mvState n = MvState.running ∧ m.sp false = Space.host) ∨
        (s.hl.mvState n = MvState.finishing ∧ m.readBack ∧ m.sp true = Space.host) then
      ({ s with hl := count s.hl } : State).mvRetry n 4 false good host .none
    else s
  | .command =>
    if s.hl.flg Reg.HL_MB_CMD_CTL F.HL_MB_CMD_CTL_EN ∧ s.hl.get Reg.HL_MB_CMD_HEAD ≠ s.hl.get Reg.HL_MB_CMD_TAIL ∧
        s.hl.mb.dead = false then
      { s with hl := (count s.hl).cmdReread 4 }
    else s

/-- DESIGN CHOICE, log entry 9. -/
def execHostReadTimeout (r : HostRead) (s : State) : Out := s.alive fun s => s.readTimeout r

/-! ### Data writes -/

/-- The data write at the head of a stream has been answered: it leaves the stream, and what may follow it
does. -/
def Cx.popWrite (cx : Cx) : Cx :=
  match cx.ch.stream.items with
  | .data _ _ _ :: rest =>
    let d := drainHead rest cx.hl
    { cx with ch := { cx.ch with stream := { cx.ch.stream with items := d.1, tries := 0, issued := false } }, hl := d.2 }
  | _ => cx

def Headland.popWrite (h : Headland) : Headland :=
  match h.stream.items with
  | .data _ _ _ :: rest =>
    let d := drainHead rest h
    { d.2 with stream := { h.stream with items := d.1, tries := 0, issued := false } }
  | _ => h

/-- The head of a stream is a data write. -/
def Stream.dataHead (st : Stream) : Bool :=
  match st.items with
  | .data _ _ _ :: _ => true
  | _ => false

/-- A data write of the stream has been issued and waits for its response. -/
def Stream.writing (st : Stream) : Bool := st.issued && st.dataHead

/-- The stream can advance: its head write waits to be issued. A closed stream issues nothing more (R75 step 3). -/
def Stream.canIssue (st : Stream) : Bool := st.dataHead && !st.issued && !st.closed

def Stream.issue (st : Stream) : Stream := { st with issued := true }

/-- Stream `n` of the round: a channel's, and after the seventeen channels the Headland's (R36, R399).
(DESIGN CHOICE, log entry 120) -/
def State.turnReady (s : State) (n : Nat) : Bool :=
  if h : n < 17 then s.chans[n].stream.canIssue else s.hl.stream.canIssue

/-- DESIGN CHOICE, log entry 120. -/
def State.issueTurn (s : State) (n : Nat) : State :=
  let s : State := if h : n < 17 then
      s.modChan ⟨n, h⟩ fun cx => { cx with ch := { cx.ch with stream := cx.ch.stream.issue } }
    else { s with hl := { s.hl with stream := s.hl.stream.issue } }
  { s with hl := { s.hl with turn := (n + 1) % 18 } }

/-- The host port engine serves one turn (R36, R399): the first stream in turn that can advance has its head write
issued; those that cannot give up their turns. While TEST_EN is 1 the port issues nothing (R624).
(DESIGN CHOICE, log entry 120) -/
def State.hostTurn (s : State) : State :=
  if s.hl.pins.testEn then s
  else match ((List.range 18).map fun i => (s.hl.turn + i) % 18).find? s.turnReady with
  | some n => s.issueTurn n
  | none => s

/-- A response to a channel's data write (R589, R590). -/
def Cx.writeResponse (cx : Cx) (code : Byte) : Cx :=
  if cx.ch.stream.writing = false then cx
  else if code = 0 then cx.popWrite
  else if fatalCode code then cx.hostFatal code true
  else
    let cx := cx.onHl fun h => h.nonFatal code cx.id.val true
    let r := cx.ch.stream.failed
    if r.2 then cx.hostFatal code true else { cx with ch := { cx.ch with stream := r.1 } }

/-- A response to a data write of the Headland (R589, R590). -/
def Headland.writeResponse (h : Headland) (code : Byte) : Headland :=
  if h.stream.writing = false then h
  else if code = 0 then h.popWrite
  else if fatalCode code then h.streamFatal code true
  else
    let h := h.nonFatal code 17 true
    let r := h.stream.failed
    if r.2 then h.streamFatal code true else { h with stream := r.1 }

/-- A response to a channel's write that was issued before its channel reset (R75, step 3): a code is counted, raised and
recorded as at any time, and the write is not issued again, since the stream is closed; it is abandoned at the end.
(DEDUCED, log entry 149) -/
def Cx.resetResponse (cx : Cx) (code : Byte) : Cx :=
  if cx.ch.stream.writing = false then cx
  else if code = 0 then cx.popWrite
  else if fatalCode code then cx.onHl fun h => h.fatalSeen code cx.id.val true
  else cx.onHl fun h => h.nonFatal code cx.id.val true

/-- What a response does to its stream. -/
def State.writeResponse (s : State) (st : StreamId) (code : Byte) : State :=
  match st with
  | .chan c => s.modChan c fun cx => if s.hl.resetRuns c then cx.resetResponse code else cx.writeResponse code
  | .headland => { s with hl := s.hl.writeResponse code }
  | .mover n => { s with hl := s.hl.moverResponse n code }

/-- HOST_WRITE_RESPONSE. (DESIGN CHOICE, log entry 9) -/
def execHostWriteResponse (st : StreamId) (code : Byte) (s : State) : Out :=
  s.alive fun s => s.writeResponse st code

/-- A data write of the stream waits for its response. -/
def State.writing (s : State) (st : StreamId) : Bool :=
  match st with
  | .chan c => s.chans[c].stream.writing
  | .headland => s.hl.stream.writing
  | .mover n => !(s.hl.mv n).out.isEmpty

/-- HOST_WRITE_TIMEOUT: the write completes with code 0x04 (R655). (DEDUCED, log entry 114) -/
def execHostWriteTimeout (st : StreamId) (s : State) : Out :=
  s.alive fun s =>
    if s.writing st then
      ({ s with hl := s.hl.inc Cnt.HL_CNT_HP_WR_TIMEOUT } : State).writeResponse st 4
    else s

end Sys2Proof.Machine
end

