-- ==== Sys2Proof/Machine/Drill.lean ====
section
/-!
DEFINITION. The Drill (chapter 13): its entries, their firing and actions, trigger pulses and captures.
Times of entries are in units of 2^-16 ns; a cycle of a Drill's island is one cycle of the STU (log entry 75).
-/

namespace Sys2Proof.Machine

open Sys2Proof

/-! Actions (R446). -/
namespace DrAct
def none_ : Nat := 0
def pulse : Nat := 1
def captureArm : Nat := 2
def sheafCommit : Nat := 3
def gateOpen : Nat := 4
def gateClose : Nat := 5
def wake : Nat := 6
def stop : Nat := 7
def raise_ : Nat := 8
end DrAct

/-! STATE and RESULT of an entry. -/
namespace DrState
def idle : Nat := 0
def armed : Nat := 1
def done : Nat := 2
end DrState

namespace DrResult
def onTime : Nat := 1
def late : Nat := 2
def missed : Nat := 3
def noEffect : Nat := 4
end DrResult

/-- The default of the entry tables. -/
def noEntry (_ : Nat) : DrillEntry := DrillEntry.empty

def Headland.drillAt (h : Headland) (e : Nat) : DrillEntry := Sparse.get noEntry h.drill e
def Headland.putDrill (h : Headland) (e : Nat) (d : DrillEntry) : Headland :=
  { h with drill := Sparse.set noEntry h.drill e d }
def Cx.drillAt (cx : Cx) (e : Nat) : DrillEntry := Sparse.get noEntry cx.ch.drill e
def Cx.putDrill (cx : Cx) (e : Nat) (d : DrillEntry) : Cx :=
  { cx with ch := { cx.ch with drill := Sparse.set noEntry cx.ch.drill e d } }

/-! An entry leaves the firing queue of its Drill (R448). -/
def Headland.dequeue (h : Headland) (n : Nat) : Headland := { h with drillQ := h.drillQ.filter (· != n) }
def Cx.setDrillQ (cx : Cx) (l : List Nat) : Cx := { cx with ch := { cx.ch with drillQ := l } }

def Cx.dequeue (cx : Cx) (n : Nat) : Cx := cx.setDrillQ (cx.ch.drillQ.filter (· != n))

/-! ### The command register (R447) -/

/-- What the staging registers hold. -/
structure Staged where
  timeLo : Word
  timeHi : Word
  frac   : Word
  period : Word
  act    : Word
  target : Word
  count  : Word
  status : Word
  deriving DecidableEq, Repr

/-- The entry that a WRITE makes of the staged values, its time given. -/
def Staged.entry (r : Staged) (time : Nat) : DrillEntry :=
  let en := getB r.act F.HL_DRILL_S_ACT_EN
  { time := time
    action := getF r.act F.HL_DRILL_S_ACT_ACTION
    target := r.target.toNat
    arg := getF r.act F.HL_DRILL_S_ACT_ARG
    period := r.period.toNat * 65536 + getF r.frac F.HL_DRILL_S_FRAC_PERIOD_FRAC
    count := getF r.count F.HL_DRILL_S_COUNT_COUNT
    remain := getF r.count F.HL_DRILL_S_COUNT_COUNT
    lateOk := getB r.act F.HL_DRILL_S_ACT_LATE_OK
    en := en
    state := if en then DrState.armed else DrState.idle
    result := 0
    fired := 0 }

/-- What a READ puts into the staging registers. -/
def DrillEntry.staged (e : DrillEntry) : Staged :=
  { timeLo := BitVec.ofNat 32 (e.time / 65536)
    timeHi := BitVec.ofNat 32 (e.time / 65536 / 2 ^ 32)
    frac := BitVec.ofNat 32 (e.time % 65536 + e.period % 65536 * 65536)
    period := BitVec.ofNat 32 (e.period / 65536)
    act := BitVec.ofNat 32 (e.action % 16 + b2n e.lateOk * 16 + b2n e.en * 64 + e.arg % 65536 * 65536)
    target := BitVec.ofNat 32 e.target
    count := BitVec.ofNat 32 (e.count % 65536 + e.remain % 65536 * 65536)
    status := BitVec.ofNat 32 (e.state % 4 + e.result % 8 * 4 + e.fired % 65536 * 65536) }

/-- DISARM clears EN and sets STATE to IDLE. -/
def DrillEntry.disarm (e : DrillEntry) : DrillEntry := { e with en := false, state := DrState.idle }

def Headland.staged (h : Headland) : Staged :=
  ⟨h.get Reg.HL_DRILL_S_TIME_LO, h.get Reg.HL_DRILL_S_TIME_HI, h.get Reg.HL_DRILL_S_FRAC,
    h.get Reg.HL_DRILL_S_PERIOD, h.get Reg.HL_DRILL_S_ACT, h.get Reg.HL_DRILL_S_TARGET,
    h.get Reg.HL_DRILL_S_COUNT, h.get Reg.HL_DRILL_S_STATUS⟩

def Cx.staged (cx : Cx) : Staged :=
  ⟨cx.get Reg.CH_DRILL_S_TIME_LO, 0, cx.get Reg.CH_DRILL_S_FRAC, cx.get Reg.CH_DRILL_S_PERIOD,
    cx.get Reg.CH_DRILL_S_ACT, cx.get Reg.CH_DRILL_S_TARGET, cx.get Reg.CH_DRILL_S_COUNT,
    cx.get Reg.CH_DRILL_S_STATUS⟩

/-- Calendar time in ns less the tick count (R462). -/
def Headland.drillDelta (h : Headland) : Int :=
  Int.ofNat (h.stu.sec * 1000000000 + h.stu.ns) - Int.ofNat h.stu.tick.toNat

/-- The entry's time under a Headland WRITE (R463). -/
def Headland.stagedTime (h : Headland) (r : Staged) : Nat :=
  let t : Nat := r.timeLo.toNat + 2 ^ 32 * r.timeHi.toNat
  let t : Nat := if getB r.act F.HL_DRILL_S_ACT_TBASE then wrapInt 64 (Int.ofNat t - h.drillDelta) else t
  t * 65536 + getF r.frac F.HL_DRILL_S_FRAC_TIME_FRAC

/-- A WRITE of a Headland entry is refused: a reserved action, or a gate of a channel above 16. -/
def Staged.hlRefused (r : Staged) : Bool :=
  let a := getF r.act F.HL_DRILL_S_ACT_ACTION
  decide (9 ≤ a) ||
    ((a == DrAct.gateOpen || a == DrAct.gateClose) && decide (16 < nbits r.target.toNat 20 16))

/-- A WRITE of a channel entry is refused: a reserved action, or one of the Headland alone. -/
def Staged.chRefused (r : Staged) : Bool :=
  let a := getF r.act F.HL_DRILL_S_ACT_ACTION
  decide (9 ≤ a) || a == DrAct.pulse || a == DrAct.captureArm || a == DrAct.sheafCommit || a == DrAct.wake

def Headland.drillWrite (h : Headland) (e : Nat) : Headland :=
  let r := h.staged
  if r.hlRefused then h.setf Reg.HL_DRILL_CMD F.HL_DRILL_CMD_ERR 1
  else ((h.setf Reg.HL_DRILL_CMD F.HL_DRILL_CMD_ERR 0).putDrill e (r.entry (h.stagedTime r))).dequeue e

def Cx.drillWrite (cx : Cx) (e : Nat) : Cx :=
  let r := cx.staged
  if r.chRefused then (cx.setf Reg.CH_DRILL_CMD F.CH_DRILL_CMD_ERR 1).configEvent Reg.CH_DRILL_CMD
  else ((cx.setf Reg.CH_DRILL_CMD F.CH_DRILL_CMD_ERR 0).putDrill e
    (r.entry (r.timeLo.toNat * 65536 + getF r.frac F.HL_DRILL_S_FRAC_TIME_FRAC))).dequeue e

def Headland.drillRead (h : Headland) (e : Nat) : Headland :=
  let r := (h.drillAt e).staged
  (((((((h.put Reg.HL_DRILL_S_TIME_LO r.timeLo).put Reg.HL_DRILL_S_TIME_HI r.timeHi).put
    Reg.HL_DRILL_S_FRAC r.frac).put Reg.HL_DRILL_S_PERIOD r.period).put Reg.HL_DRILL_S_ACT r.act).put
    Reg.HL_DRILL_S_TARGET r.target).put Reg.HL_DRILL_S_COUNT r.count).put Reg.HL_DRILL_S_STATUS r.status

def Cx.drillRead (cx : Cx) (e : Nat) : Cx :=
  let r := (cx.drillAt e).staged
  ((((((cx.put Reg.CH_DRILL_S_TIME_LO r.timeLo).put Reg.CH_DRILL_S_FRAC r.frac).put
    Reg.CH_DRILL_S_PERIOD r.period).put Reg.CH_DRILL_S_ACT r.act).put Reg.CH_DRILL_S_TARGET r.target).put
    Reg.CH_DRILL_S_COUNT r.count).put Reg.CH_DRILL_S_STATUS r.status

/-- The entry number a command register names: 0 to 63 in a channel. -/
def execDrillRead (d : Option ChanId) (e : Fin 256) (s : State) : Out :=
  match d with
  | some c => s.coreWrite c fun cx => if e.val < 64 then cx.drillRead e else cx
  | none => s.hlWrite fun h => h.drillRead e

/-! ### Occurrences (R448 to R451) -/

/-- The period that acts (R450); 0 for a single occurrence. -/
def DrillEntry.step (e : DrillEntry) : Nat :=
  if e.action = DrAct.sheafCommit ∨ e.period / 65536 = 0 then 0
  else if e.period / 65536 < 64 then 64 * 65536 else e.period

/-- Occurrences to come; none without a limit. A SHEAF_COMMIT entry fires once. -/
def DrillEntry.left (e : DrillEntry) : Option Nat :=
  if e.action = DrAct.sheafCommit ∨ e.count = 0 then none else some e.remain

/-- The loop of R449 in closed form. `behind` is how far T lies before the end of the present cycle, and `m` the
bits of a time; it gives the entry and how many occurrences are skipped. (DEDUCED, log entry 77) -/
def DrillEntry.advance (e : DrillEntry) (behind m : Nat) : DrillEntry × Nat :=
  let p := e.step
  let rem (n : Nat) : Nat := match e.left with
    | some _ => e.remain - n
    | none => e.remain
  let finish (n : Nat) : DrillEntry :=
    { e with remain := rem (n + 1), time := (e.time + n * p) % 2 ^ m, state := DrState.done, en := false }
  if p = 0 then (finish 0, 0)
  else
    let k := behind / p
    match e.left with
    | some r =>
      if r - 1 ≤ k then (finish (r - 1), r - 1)
      else ({ e with remain := r - (k + 1), time := (e.time + (k + 1) * p) % 2 ^ m }, k)
    | none => ({ e with time := (e.time + (k + 1) * p) % 2 ^ m }, k)

/-- The entry with the result of an occurrence; a performed one counts in FIRED. -/
def DrillEntry.record (e : DrillEntry) (result : Nat) (performed : Bool) : DrillEntry :=
  { e with result := result, fired := if performed then min 65535 (e.fired + 1) else e.fired }

/-- Do something `n` times. -/
def times {α : Type} (f : α → α) : Nat → α → α
  | 0, a => a
  | n + 1, a => times f n (f a)

/-- Raise with another tick count than the present one (R452). -/
def Headland.atTick (h : Headland) (t : Nat) (f : Headland → Headland) : Headland :=
  { f { h with stu := { h.stu with tick := BitVec.ofNat 64 t } } with stu := h.stu }

/-! ### Channel Drill -/

/-- The gate of a transmit queue (R456). -/
def Cx.setGate (cx : Cx) (q : Nat) (closed : Bool) : Cx :=
  cx.setf (Reg.CH_DRILL_GATE (q / 32)) ⟨q % 32, 1⟩ (b2n closed)

/-- The end of the present cycle of a channel: its time in the next one (R410, R426). (DEDUCED, log entry 75) -/
def Cx.nextTime16 (cx : Cx) : Nat :=
  let hl := cx.hl.setStu (cx.hl.stu.advance cx.hl.stuY)
  ({ cx with hl := hl, ch := cx.ch.timeTick (cycleInc cx.hl.stuY) } : Cx).time16

/-- A channel entry's time `t` less a time of the channel, as the comparison of R414 takes it, in units of 2^-16 ns. -/
def shortDiff (t now : Nat) : Int := signed 48 ((t + 2 ^ 80 - now % 2 ^ 48) % 2 ^ 48)

/-- T of an entry on the STU's clock, in whole ns (R415). -/
def Cx.stuTick (cx : Cx) (e : DrillEntry) : Int :=
  ((cx.hl.stu.tick.toNat * 65536 + cx.hl.stu.frac / 2 ^ 32 : Nat) + shortDiff e.time cx.time16) / 65536

/-- An occurrence of a channel entry is performed; false when it has no effect. The record of an on-time RAISE holds T
(R452), on the clock of event records (R415). (DEDUCED, log entry 77) -/
def Cx.drillPerform (cx : Cx) (n : Nat) (e : DrillEntry) (onTime : Bool) : Cx × Bool :=
  let q := e.target % 256
  if e.action = DrAct.gateOpen then (cx.setGate q false, true)
  else if e.action = DrAct.gateClose then (cx.setGate q true, true)
  else if e.action = DrAct.stop then
    if cx.mayForce then (cx.startEntry (e.arg % 2 == 1) true, true) else (cx, false)
  else if e.action = DrAct.raise_ then
    let tick := if onTime then BitVec.ofNat 64 (wrapInt 64 (cx.stuTick e)) else cx.hl.stu.tick
    let r := (cx.onHl fun h => { h with stu := { h.stu with tick := tick } }).raise Ev.drill n
    ({ r with hl := { r.hl with stu := cx.hl.stu } }, true)
  else (cx, true)

/-- One late or missed occurrence is reported. -/
def Cx.drillLate (n : Nat) (cx : Cx) : Cx := cx.raise Ev.drillLate n

/-- The Drill of a channel fires nothing while the channel is in Stop, Halted or Handover (R460), nor while it is stopped
(R473, R474). -/
def Cx.drillRuns (cx : Cx) : Bool :=
  !cx.modeIn [ModeCode.stop, ModeCode.halted, ModeCode.handover] && !cx.ch.coreStopped && !cx.subStopped 8

/-- A channel's armed entry is at its firing point: T lies in the present cycle or before it (R414, R449).
(DEDUCED, log entry 75) -/
def Cx.drillDue (cx : Cx) (e : DrillEntry) : Bool :=
  e.en && cx.drillRuns && decide (shortDiff e.time cx.nextTime16 < 0)

/-- The occurrence of R449 for a channel entry. (DEDUCED, log entry 75) -/
def Cx.drillOccur (cx : Cx) (n : Nat) : Cx :=
  let e := cx.drillAt n
  let onTime := decide (0 ≤ shortDiff e.time cx.time16)
  let behind := (-(shortDiff e.time cx.nextTime16) - 1).toNat
  let r := e.advance behind 48
  let cx := cx.putDrill n r.1
  let cx :=
    if onTime || e.lateOk then
      let p := cx.drillPerform n e onTime
      let res := if p.2 then (if onTime then DrResult.onTime else DrResult.late) else DrResult.noEffect
      let cx := p.1.putDrill n (r.1.record res true)
      if onTime then cx.inc Cnt.CH_CNT_DRILL_FIRED else (cx.inc Cnt.CH_CNT_DRILL_LATE).drillLate n
    else ((cx.putDrill n (r.1.record DrResult.missed false)).inc Cnt.CH_CNT_DRILL_MISSED).drillLate n
  (times (Cx.drillLate n) r.2 cx).add Cnt.CH_CNT_DRILL_MISSED r.2

/-! The firing queue of a channel (R448). -/

/-- An entry fires if it is at its firing point. -/
def Cx.fireOne (cx : Cx) (n : Nat) : Cx := if cx.drillDue (cx.drillAt n) then (cx.dequeue n).drillOccur n else cx

/-- The entries of the firing queue, up to number `n`, that fire in this cycle, in ascending order (R453). -/
def Cx.dueUpTo (cx : Cx) (n : Nat) : List Nat :=
  (List.range (n + 1)).filter fun k => cx.ch.drillQ.contains k && cx.drillDue (cx.drillAt k)

def Cx.drillFires (cx : Cx) (n : Nat) : Cx := (cx.dueUpTo n).foldl Cx.fireOne cx

/-- Put an entry into a firing queue of `cap` places, in time order; the last of too many is left out (R448). -/
def enqueue (time : Nat → Int) (cap n : Nat) (l : List Nat) : List Nat :=
  if l.contains n then l
  else ((l.takeWhile fun k => decide (time k ≤ time n)) ++ n :: l.dropWhile fun k => decide (time k ≤ time n)).take cap

/-- 64 ns in units of 2^-16 ns. -/
def nearTime : Nat := 64 * 65536

/-- The Drill of a channel examines an entry: one armed whose time lies within the next 64 ns, or has passed, enters the
firing queue (R448). -/
def Cx.examine (cx : Cx) (n : Nat) : Cx :=
  let time (k : Nat) : Int := shortDiff (cx.drillAt k).time cx.nextTime16
  if (cx.drillAt n).en && decide (time n < nearTime) then cx.setDrillQ (enqueue time 8 n cx.ch.drillQ) else cx

/-- What the Drill of a channel examines in one cycle of the STU: 8 entries a core cycle, 10 in a nanosecond.
(DESIGN CHOICE, log entry 132) -/
def Cx.drillScan (cx : Cx) : Cx :=
  if cx.ch.drill.isEmpty || !cx.drillRuns then cx
  else (List.range 10).foldl (fun cx i => cx.examine ((cx.hl.stu.tick.toNat * 10 + i) % 64)) cx

/-- At wake the Drill handles its entries by the length of the Stop (R460). (DEDUCED, log entry 77) -/
def Cx.drillWake (cx : Cx) (d : Nat) : Cx :=
  (List.range 64).foldl (fun cx n =>
    let e := cx.drillAt n
    if d ≤ 2 ^ 31 - 1 then
      if e.en && decide (shortDiff e.time cx.nextTime16 < 0) then (cx.dequeue n).drillOccur n else cx
    else if e.en then
      (((cx.dequeue n).putDrill n { e.disarm with result := DrResult.missed }).inc Cnt.CH_CNT_DRILL_MISSED).drillLate n
    else cx) cx

/-! ### Headland Drill -/

/-- Channels of a mask. (DEDUCED, log entry 77) -/
def maskChans (m : Nat) : List ChanId :=
  (List.finRange 17).filter fun c => nbit m c.val

/-- Give each channel of a list an action that says whether it had an effect. What fires in its own Drill in the same
cycle is applied before (R453). -/
def State.actOn (s : State) (f : Cx → Cx × Bool) : List ChanId → State × Bool
  | [] => (s, false)
  | c :: cs =>
    let r := f ((s.view c).drillFires 63)
    let t := (s.putView c r.1).actOn f cs
    (t.1, r.2 || t.2)

/-- A gate action of the Headland (R457, R547). -/
def Cx.hlGate (q : Nat) (closed : Bool) (cx : Cx) : Cx × Bool :=
  if cx.mode = ModeCode.halted then (cx, false)
  else if cx.mode = ModeCode.stop ∨ cx.ch.coreStopped ∨ cx.frozen then
    (cx.setPwr { cx.ch.pwr with gates := cx.ch.pwr.gates ++ [(q, closed)] }, true)
  else (cx.setGate q closed, true)

/-- Held gate actions are applied (R457). -/
def Cx.deliverGates (cx : Cx) : Cx :=
  let l := cx.ch.pwr.gates
  l.foldl (fun cx g => cx.setGate g.1 g.2) (cx.setPwr { cx.ch.pwr with gates := [] })

/-- WAKE and STOP (R458); a wake during the entry is kept for its end (R475, R480). (DEDUCED, log entry 76) -/
def Cx.drillWakeAct (cx : Cx) : Cx × Bool :=
  (cx.wakeSource Wk.drill, cx.phase == Phase.entering || cx.phase == Phase.stopped)

def Cx.drillStopAct (watch : Bool) (cx : Cx) : Cx × Bool :=
  if cx.mayForce then (cx.startEntry watch true, true) else (cx, false)

/-- The ends of the pulses in progress on a trigger output, in eighths of a ns. -/
def noPulse (_ : Nat) : List DWord := []
def noEnd (_ : Nat) : Option DWord := none

/-- A PULSE (R452): its leading edge leaves at T less OFS, or at once when that has passed. (DEDUCED, log entry 75) -/
def Headland.pulse (h : Headland) (n arg : Nat) (lead8 : Int) : Headland :=
  let stop := wrapInt 64 (lead8 + 8 * max 1 arg)
  let l := Sparse.get noPulse h.pins.trig n
  { h with pins := { h.pins with trig := Sparse.set noPulse h.pins.trig n (l ++ [BitVec.ofNat 64 stop]) } }

/-- Arm a capture input with a window in µs from a tick count (R455). -/
def Headland.captureArm (h : Headland) (n window from_ : Nat) : Headland :=
  let h := h.setf (Reg.HL_DRILL_CAP_CTL n) F.HL_DRILL_CAP_CTL_ARM 1
  let e := if window = 0 then none else some (BitVec.ofNat 64 (from_ + 1000 * window))
  { h with pins := { h.pins with capEnd := Sparse.set noEnd h.pins.capEnd n e } }

/-- An occurrence of a Headland entry is performed; false when it has no effect. -/
def State.drillPerform (s : State) (n : Nat) (e : DrillEntry) (onTime : Bool) : State × Bool :=
  let t := e.time / 65536
  let hl (h : Headland) : State × Bool := ({ s with hl := h }, true)
  if e.action = DrAct.pulse then
    let o := e.target % 16
    let now8 : Nat := s.hl.stu.tick.toNat * 8 + s.hl.stu.frac / 2 ^ 45
    let lead : Int := (e.time / 2 ^ 13 : Nat) - (s.hl.fld (Reg.HL_DRILL_TRIG o) F.HL_DRILL_TRIG_OFS : Nat)
    hl (s.hl.pulse o e.arg (max now8 lead))
  else if e.action = DrAct.captureArm then
    hl (s.hl.captureArm (e.target % 8) e.arg (if onTime then t else s.hl.stu.tick.toNat))
  else if e.action = DrAct.sheafCommit then
    (s.overChans (fun cx => cx.armArrive (e.arg % 4) (BitVec.ofNat 64 t)) (maskChans e.target), true)
  else if e.action = DrAct.gateOpen ∨ e.action = DrAct.gateClose then
    let c := nbits e.target 20 16
    if hc : c < 17 then
      s.actOn (Cx.hlGate (e.target % 256) (e.action == DrAct.gateClose)) [⟨c, hc⟩]
    else (s, false)
  else if e.action = DrAct.wake then s.actOn Cx.drillWakeAct (maskChans e.target)
  else if e.action = DrAct.stop then s.actOn (Cx.drillStopAct (e.arg % 2 == 1)) (maskChans e.target)
  else if e.action = DrAct.raise_ then
    hl (s.hl.atTick (if onTime then t else s.hl.stu.tick.toNat) fun h => h.raise (Ev.hlDrill + e.arg % 16) n)
  else (s, true)

/-- One late or missed occurrence is reported. -/
def Headland.drillLate (n : Nat) (h : Headland) : Headland := h.raise Ev.hlDrillLate n

/-- STU time in units of 2^-16 ns, and the end of the present cycle. -/
def Stu.time16 (t : Stu) : Nat := t.tick.toNat * 65536 + t.frac / 2 ^ 32
def Headland.nextTime16 (h : Headland) : Nat := (h.stu.advance h.stuY).time16

/-- How far the firing point of an entry lies before T, in units of 2^-16 ns: 100 µs for a SHEAF_COMMIT (R451), and OFS
for a PULSE, whose edge leaves then (R452, R454). -/
def Headland.drillLead (h : Headland) (e : DrillEntry) : Nat :=
  if e.action = DrAct.sheafCommit then 100000 * 65536
  else if e.action = DrAct.pulse then h.fld (Reg.HL_DRILL_TRIG (e.target % 16)) F.HL_DRILL_TRIG_OFS * 2 ^ 13
  else 0

/-- A Headland entry is at its firing point (R449, R451). -/
def Headland.drillDue (h : Headland) (e : DrillEntry) : Bool :=
  e.en && decide (e.time < h.nextTime16 + h.drillLead e)

/-- The occurrence of R449 for a Headland entry. (DEDUCED, log entry 75) -/
def State.drillOccur (s : State) (n : Nat) : State :=
  let e := s.hl.drillAt n
  let onTime := decide (s.hl.stu.time16 ≤ e.time)
  let r := e.advance (s.hl.nextTime16 - 1 - e.time) 80
  let s : State := { s with hl := s.hl.putDrill n r.1 }
  let s : State :=
    if onTime || e.lateOk then
      let p := s.drillPerform n e onTime
      let res := if p.2 then (if onTime then DrResult.onTime else DrResult.late) else DrResult.noEffect
      let h := p.1.hl.putDrill n (r.1.record res true)
      { p.1 with hl := if onTime then h.inc Cnt.HL_CNT_DRILL_FIRED else (h.inc Cnt.HL_CNT_DRILL_LATE).drillLate n }
    else
      { s with hl := ((s.hl.putDrill n (r.1.record DrResult.missed false)).inc Cnt.HL_CNT_DRILL_MISSED).drillLate n }
  { s with hl := (times (Headland.drillLate n) r.2 s.hl).add Cnt.HL_CNT_DRILL_MISSED r.2 }

/-! The firing queue of the Headland (R448). -/

def State.fireOne (s : State) (n : Nat) : State :=
  if s.hl.drillDue (s.hl.drillAt n) then ({ s with hl := s.hl.dequeue n } : State).drillOccur n else s

/-- The entries of the firing queue, up to number `n`, that fire in this cycle, in ascending order (R453). -/
def Headland.dueUpTo (h : Headland) (n : Nat) : List Nat :=
  (List.range (n + 1)).filter fun k => h.drillQ.contains k && h.drillDue (h.drillAt k)

def State.drillFires (s : State) (n : Nat) : State := (s.hl.dueUpTo n).foldl State.fireOne s

/-- The Headland Drill examines an entry (R448). -/
def Headland.examine (h : Headland) (n : Nat) : Headland :=
  let time (k : Nat) : Int := ((h.drillAt k).time : Int) - h.drillLead (h.drillAt k)
  if (h.drillAt n).en && decide (time n < (h.nextTime16 + nearTime : Nat)) then
    { h with drillQ := enqueue time 16 n h.drillQ }
  else h

/-- The 8 entries that the Headland Drill examines in one cycle of the STU. (DESIGN CHOICE, log entry 132) -/
def Headland.drillScan (h : Headland) : Headland :=
  if h.drill.isEmpty then h
  else (List.range 8).foldl (fun h i => h.examine ((h.stu.tick.toNat * 8 + i) % 256)) h

/-- DRILL_FIRE: an entry of the Headland Drill's firing queue, or of a channel's, fires, after those of lower number that
fire in the same cycle (R448, R453). -/
def execDrillFire (d : Option ChanId) (e : Fin 256) (s : State) : Out :=
  match d with
  | some c => s.onChan c fun cx => if e.val < 64 then cx.drillFires e else cx
  | none => s.alive fun s => s.drillFires e

/-! ### Writing and disarming (R447) -/

/-- A command on a Drill's entry: what fires in the same cycle takes place first (R447). An entry that it changes is
examined afresh. -/
def Cx.drillEdit (cx : Cx) (e : Nat) (f : Cx → Cx) : Cx := f (cx.drillFires e)
def State.drillEdit (s : State) (e : Nat) (f : Headland → Headland) : State :=
  let s := s.drillFires e
  { s with hl := f s.hl }

def execDrillWrite (d : Option ChanId) (e : Fin 256) (s : State) : Out :=
  match d with
  | some c => s.coreWrite c fun cx => if e.val < 64 then cx.drillEdit e fun cx => cx.drillWrite e else cx
  | none => s.access fun s => s.drillEdit e fun h => h.drillWrite e

def Cx.drillDisarm (cx : Cx) (e : Nat) : Cx := (cx.putDrill e (cx.drillAt e).disarm).dequeue e
def Headland.drillDisarm (h : Headland) (e : Nat) : Headland := (h.putDrill e (h.drillAt e).disarm).dequeue e

def execDrillDisarm (d : Option ChanId) (e : Fin 256) (s : State) : Out :=
  match d with
  | some c => s.coreWrite c fun cx => if e.val < 64 then cx.drillEdit e fun cx => cx.drillDisarm e else cx
  | none => s.access fun s => s.drillEdit e fun h => h.drillDisarm e

/-- What fires in the same cycle as a host write to a channel's gates is applied before it: the channel Drill's
occurrences, then the Headland's (R453). -/
def State.drillFirst (s : State) (c : ChanId) : State := (s.modChan c fun cx => cx.drillFires 63).drillFires 255

/-! ### Triggers and captures (R452 to R455) -/

/-- PULSE_END: the pulse that ends first on a trigger output ends. -/
def execPulseEnd (n : Fin 16) (s : State) : Out :=
  s.onHl fun h =>
    let l := Sparse.get noPulse h.pins.trig n
    match l with
    | [] => h
    | a :: r =>
      let m := r.foldl (fun a b => if b.toNat < a.toNat then b else a) a
      { h with pins := { h.pins with trig := Sparse.set noPulse h.pins.trig n (l.erase m) } }

/-- CAPTURE_ARM: a host write of HL_DRILL_CAP_CTL (R455). -/
def Headland.capCtl (h : Headland) (n : Nat) (v : Word) : Headland :=
  let off := Reg.HL_DRILL_CAP_CTL n
  let h := ((h.setf off F.HL_DRILL_CAP_CTL_EDGE (getF v F.HL_DRILL_CAP_CTL_EDGE)).setf off
    F.HL_DRILL_CAP_CTL_CONT (getF v F.HL_DRILL_CAP_CTL_CONT)).setf off
    F.HL_DRILL_CAP_CTL_WINDOW_US (getF v F.HL_DRILL_CAP_CTL_WINDOW_US)
  let h := if getB v F.HL_DRILL_CAP_CTL_TIMEOUT then h.setf off F.HL_DRILL_CAP_CTL_TIMEOUT 0 else h
  if getB v F.HL_DRILL_CAP_CTL_ARM then
    h.captureArm n (h.fld off F.HL_DRILL_CAP_CTL_WINDOW_US) h.stu.tick.toNat
  else h

def execCaptureArm (n : Fin 8) (v : Word) (s : State) : Out := s.hlWrite fun h => h.capCtl n v

/-- CAPTURE_EDGE: a rising or falling edge at a capture input, at its place in the STU cycle. Of two edges within one STU cycle the first is captured;
a window in which an edge came ends without a timeout (R455). -/
def Headland.capture (h : Headland) (n : Nat) (e : Edge) : Headland :=
  let off := Reg.HL_DRILL_CAP_CTL n
  if h.flg off F.HL_DRILL_CAP_CTL_ARM && Sparse.get noEnd h.pins.capAt n != some h.stu.tick &&
      nbit (h.fld off F.HL_DRILL_CAP_CTL_EDGE) (if e.rising then 0 else 1) then
    let ts := (h.stu.tick.toNat * 8 + h.stu.frac / 2 ^ 45 + e.place.val) % 2 ^ 64
    let h := (h.put (Reg.HL_DRILL_CAP_TS_LO n) (BitVec.ofNat 32 ts)).put (Reg.HL_DRILL_CAP_TS_HI n)
      (BitVec.ofNat 32 (ts / 2 ^ 32))
    let h := h.inc Cnt.HL_CNT_DRILL_CAPTURES
    let h := { h with pins := { h.pins with
      capEnd := Sparse.set noEnd h.pins.capEnd n none, capAt := Sparse.set noEnd h.pins.capAt n (some h.stu.tick) } }
    let h := h.atTick (ts / 8) fun h => h.raise (Ev.capture + n) (ts % 8 + h.fld Reg.HL_STU_DEVID F.HL_STU_DEVID_DEVID * 65536)
    if h.flg off F.HL_DRILL_CAP_CTL_CONT then h else h.setf off F.HL_DRILL_CAP_CTL_ARM 0
  else h

def execCaptureEdge (n : Fin 8) (e : Edge) (s : State) : Out := s.onHl fun h => h.capture n e

/-- CAPTURE_TIMEOUT: the window of an armed input ends. -/
def Headland.captureTimeout (h : Headland) (n : Nat) : Headland :=
  let off := Reg.HL_DRILL_CAP_CTL n
  if h.flg off F.HL_DRILL_CAP_CTL_ARM && (Sparse.get noEnd h.pins.capEnd n).isSome then
    let h := (h.setf off F.HL_DRILL_CAP_CTL_ARM 0).setf off F.HL_DRILL_CAP_CTL_TIMEOUT 1
    ({ h with pins := { h.pins with capEnd := Sparse.set noEnd h.pins.capEnd n none } } : Headland).inc
      Cnt.HL_CNT_DRILL_CAP_TIMEOUT
  else h

def execCaptureTimeout (n : Fin 8) (s : State) : Out := s.onHl fun h => h.captureTimeout n

end Sys2Proof.Machine
end

