-- ==== Sys2Proof/Machine/Seals.lean ====
section
/-!
DEFINITION. Retention groups and their signatures (R487 to R489): where the rows of a group lie, the signature over
them, and the groups whose seals fail at a wake.
-/

namespace Sys2Proof.Machine

open Sys2Proof

/-! ### Banks of the buffer memory (R313) -/

def Cx.fbValid (cx : Cx) (f : Nat) : Bool :=
  cx.flg Reg.CH_GR_BANKS (if f = 0 then F.CH_GR_BANKS_FB0_VALID else F.CH_GR_BANKS_FB1_VALID)
def Cx.fbRetired (cx : Cx) (f : Nat) : Bool :=
  cx.flg Reg.CH_GR_BANKS (if f = 0 then F.CH_GR_BANKS_FB0_RETIRED else F.CH_GR_BANKS_FB1_RETIRED)
def Cx.fbBank (cx : Cx) (f : Nat) : Nat :=
  cx.fld Reg.CH_GR_BANKS (if f = 0 then F.CH_GR_BANKS_FB0_BANK else F.CH_GR_BANKS_FB1_BANK)
def Cx.fbFree (cx : Cx) (f : Nat) : Bool := !cx.fbValid f && !cx.fbRetired f

/-- The index that physical buffer bank `p` serves, if any. -/
def Cx.served (cx : Cx) (p : Nat) : Option Nat :=
  if 24 ≤ p then (if cx.fbValid (p - 24) then some (cx.fbBank (p - 24)) else none)
  else if cx.bufBank p = p then some p else none

/-! ### Groups (R487) -/

/-- The space and the bank whose rows a group holds: an active bank in its own memory, or a fallow bank those of the
bank it serves. None for an idle fallow bank, a retired bank and the retention flops. -/
def Cx.sealHome (cx : Cx) (g : Nat) : Option (Nat × Nat) :=
  if g < 26 then (cx.served g).map fun b => (Space.buffer, b)
  else if g < 34 then (if cx.treeFallow (g - 26) then none else some (Space.tree, g - 26))
  else if g = 34 then
    if cx.flg Reg.CH_FB_TREE F.CH_FB_TREE_VALID then some (Space.tree, cx.fld Reg.CH_FB_TREE F.CH_FB_TREE_BANK) else none
  else if g < 47 then (if cx.ctxFallow (g - 35) then none else some (Space.context, g - 35))
  else if g = 47 then
    if cx.flg Reg.CH_FB_CTX F.CH_FB_CTX_VALID then some (Space.context, cx.fld Reg.CH_FB_CTX F.CH_FB_CTX_BANK) else none
  else if g = 48 then some (Space.staging, 0)
  else none

/-- Bytes of a row (R251, R528). -/
def sealRowLen (sp : Nat) : Nat := if sp = Space.tree then 32 else 64

/-- Bank and row of a byte of a space: node bits 2:0 name the bank and bits 15:3 the row of the tree (R251); context
memory lies bank after bank (R506), as do the buffer's cells (R312). -/
def sealPlace (sp a : Nat) : Nat × Nat :=
  if sp = Space.tree then (a / 32 % 8, a / 256)
  else if sp = Space.staging then (0, a / 64)
  else (a / 131072, a % 131072 / 64)

/-- Address in its space of the first byte of a row. -/
def sealRowAddr (sp bank row : Nat) : Nat :=
  if sp = Space.tree then 32 * (8 * row + bank)
  else if sp = Space.staging then 64 * row
  else 131072 * bank + 64 * row

/-- A memory of the channel, by its space. -/
def Chan.spaceMem (c : Chan) (sp : Nat) : Sparse Byte :=
  if sp = Space.buffer then c.buf
  else if sp = Space.tree then c.tree
  else if sp = Space.context then c.ctxm
  else c.stg

def Chan.setSpaceMem (c : Chan) (sp : Nat) (m : Sparse Byte) : Chan :=
  if sp = Space.buffer then { c with buf := m }
  else if sp = Space.tree then { c with tree := m }
  else if sp = Space.context then { c with ctxm := m }
  else { c with stg := m }

/-! ### Signatures (R488) -/

/-- The CRC-64 of a row: its address as 4 bytes, then its data. (DESIGN CHOICE, log entry 134) -/
def rowSeal (row : Nat) (bs : List Byte) : BitVec 64 := BitVec.ofNat 64 (crc64 (leBytes 4 row ++ bs))

/-- What a row adds to a signature beyond a row of zeros. -/
def rowSealOver (row : Nat) (bs : List Byte) : BitVec 64 :=
  rowSeal row bs ^^^ rowSeal row (List.replicate bs.length 0)

/-- Rows of a bank that hold a byte other than zero. -/
def Chan.liveRows (c : Chan) (sp bank : Nat) : List Nat :=
  ((c.spaceMem sp).filterMap fun e =>
    let p := sealPlace sp e.1
    if p.1 = bank then some p.2 else none).eraseDups

/-- A group whose bytes State does not hold, or not all of them: bytes of context memory whose layout is opaque lie in
the flow context banks and in channel table banks 2 and 3. (DESIGN CHOICE, log entry 134) -/
def Cx.sealHidden (cx : Cx) (g : Nat) : Bool :=
  match cx.sealHome g with
  | none => true
  | some (sp, b) => sp == Space.context && (decide (b < 8) || decide (10 ≤ b))

/-- The signature of a group: the XOR of the CRC-64 of its rows, as the running signature of R488 stands. The CRC is
linear and the rows of a group are 2^k in number with k above 1, so that rows of zeros add nothing together.
`now` is the tick count at which the clock stops. -/
def Cx.signature (cx : Cx) (now : DWord) (g : Nat) : BitVec 64 :=
  let own := match cx.sealHome g with
    | none => 0
    | some (sp, b) => (cx.ch.liveRows sp b).foldl (fun s r =>
        s ^^^ rowSealOver r (Sparse.bytes (cx.ch.spaceMem sp) (sealRowAddr sp b r) (sealRowLen sp))) 0
  if cx.sealHidden g then own ^^^ Config.hiddenSeal cx.id.val g now else own

/-! ### A wake's check (R489) -/

/-- A byte of a group has changed in retention. -/
def Cx.flip (cx : Cx) (x : SealFlip) : Cx :=
  match cx.sealHome x.group.val with
  | none => cx
  | some (sp, b) =>
    let n := sealRowLen sp
    let a := sealRowAddr sp b (x.addr.val / n) + x.addr.val % n
    let m := cx.ch.spaceMem sp
    { cx with ch := cx.ch.setSpaceMem sp (Sparse.set zeroByte m a (Sparse.get zeroByte m a ^^^ x.mask)) }

/-- What the changed bytes of a group that State does not hold add to its signature. -/
def Cx.hiddenFlips (cx : Cx) (g : Nat) (flips : List SealFlip) : BitVec 64 :=
  if cx.sealHome g = none then
    (flips.filter fun x => x.group.val == g).foldl (fun s x =>
      s ^^^ rowSealOver (x.addr.val / 64) ((List.replicate 64 (0 : Byte)).set (x.addr.val % 64) x.mask)) 0
  else 0

/-- A row of a group was left uncorrectable by a migration (R336, R528). -/
def Cx.sealBadRow (cx : Cx) (g : Nat) : Bool :=
  cx.ch.badRows.any fun r =>
    match r with
    | .treeUe n => cx.sealHome g == some (Space.tree, n.val % 8)
    | .ctxUe a => cx.sealHome g == some (Space.context, a.val / 131072)
    | .bufUe i => cx.sealHome g == some (Space.buffer, i.val / 512)
    | _ => false

/-- The groups whose seals fail, in ascending order: the recomputed signature differs from the stored one, or a read
shows an uncorrectable error. The flips have been made. -/
def Cx.sealFailures (cx : Cx) (flips : List SealFlip) (ues : List Nat) : List Nat :=
  (List.range 50).filter fun g =>
    cx.signature cx.ch.pwr.since g ^^^ cx.hiddenFlips g flips != cx.ch.pwr.seals.getD g 0 ||
      ues.contains g || cx.sealBadRow g

end Sys2Proof.Machine
end

