-- ==== Sys2Proof/Machine/Power.lean ====
section
/-!
DEFINITION. Run, Stop and the power budget (chapter 14): Stop entry, waking, pad hold, brown-out, DVFS and the
budget arbiter. The waking of a channel is completed in Fallow, where a handover may wait for it.
-/

namespace Sys2Proof.Machine

open Sys2Proof

/-! ### Starting an entry (R468 to R471) -/

/-- A transmit queue holds a frame or a committed descriptor. -/
def Cx.txBusy (cx : Cx) (q : Nat) : Bool :=
  let x := cx.txq q
  !x.frames.isEmpty || !x.descs.isEmpty || x.storing.isSome ||
    (committed x.held (cx.get (qHead true q)) (cx.get (qTail true q)) (cx.get (qHead true q))).isSome

/-- Some burst's content is staged. -/
def Cx.stagedContent (cx : Cx) : Bool := cx.ch.us.bursts.any Burst.begun

/-- The conditions of automatic entry (R468). -/
def Cx.autoOk (cx : Cx) : Bool :=
  cx.flg Reg.CH_PWR_CTL F.CH_PWR_CTL_AUTO_EN && cx.mode == ModeCode.service && cx.actState == Act.operation &&
    cx.permit && cx.flg Reg.CH_PWR_STATUS F.CH_PWR_STATUS_IDLE_EXPIRED &&
    (List.range 256).all (fun q => !(cx.qEn true q && cx.txBusy q)) && !cx.stagedContent

def Cx.autoVar (cx : Cx) : Bool := cx.flg Reg.CH_PWR_CTL F.CH_PWR_CTL_AUTO_VAR

/-- Automatic entry is attempted when its conditions hold. -/
def Cx.autoStop (cx : Cx) : Cx :=
  if cx.phase = Phase.run ∧ cx.autoOk ∧ cx.hoSource = false then cx.startEntry cx.autoVar false else cx

/-- IDLE_TIMER_EXPIRY: the timer runs only in Service. -/
def execIdleTimerExpiry (c : ChanId) (s : State) : Out :=
  s.onChan c fun cx =>
    if cx.mode = ModeCode.service ∧ cx.phase = Phase.run then
      (cx.setf Reg.CH_PWR_STATUS F.CH_PWR_STATUS_IDLE_EXPIRED 1).autoStop
    else cx

/-- A write of CH_PWR_CTL (R471, R475). -/
def Cx.pwrCtl (cx : Cx) (v : Word) : Cx :=
  let cx := (cx.setf Reg.CH_PWR_CTL F.CH_PWR_CTL_AUTO_EN (getF v F.CH_PWR_CTL_AUTO_EN)).setf
    Reg.CH_PWR_CTL F.CH_PWR_CTL_AUTO_VAR (getF v F.CH_PWR_CTL_AUTO_VAR)
  let cx := if getB v F.CH_PWR_CTL_STOP && cx.mayForce then cx.startEntry cx.autoVar true else cx
  if getB v F.CH_PWR_CTL_WAKE then cx.wakeSource Wk.host else cx

/-- STOP_REQUEST: a write of CH_PWR_CTL with STOP = 1. -/
def execStopRequest (c : ChanId) (v : Word) (s : State) : Out :=
  s.aonWrite c fun cx => cx.pwrCtl (setF v F.CH_PWR_CTL_STOP 1)

/-! ### The entry sequence (R472 to R474) -/

/-- The upstream scheduler, 0x5. -/
def Cx.refuses5 (cx : Cx) : Bool :=
  cx.stagedContent || (List.range 256).any (fun q => (cx.txHead q).any fun f => decide (0 < f.sent)) ||
    (!cx.ch.pwr.forced && !cx.autoOk)

/-- The ring engine, 0x1. -/
def Cx.refuses1 (cx : Cx) : Bool :=
  !cx.ch.rings.reads.isEmpty || cx.ch.rings.txq.any (fun e => e.2.storing.isSome) ||
    cx.ch.rings.rxq.any fun e => !e.2.frames.isEmpty

/-- The completion writer, 0x2. (DEDUCED, log entry 81) -/
def Cx.refuses2 (cx : Cx) : Bool := !cx.ch.rings.hold.isEmpty || !cx.ch.stream.waiting.isEmpty

/-- A mover set reads or writes tree or context memory of the channel: it runs, or its barrier reads the destination
back (R515). -/
def Cx.movesMemory (cx : Cx) : Bool :=
  cx.hl.movers.any fun e =>
    let m := e.2
    let at_ (dst : Bool) : Bool :=
      (m.sp dst == 2 || m.sp dst == 3) && m.chan dst == cx.id.val
    (cx.hl.mvState e.1 == 1 && (at_ false || at_ true)) ||
      (cx.hl.mvState e.1 == MvState.finishing && m.readBack && at_ true)

/-- The classifier, 0x4. -/
def Cx.refuses4 (cx : Cx) : Bool := cx.sheafBusy || cx.movesMemory

def Cx.migrating (cx : Cx) : Bool :=
  cx.flg Reg.CH_GR_MIGRATE F.CH_GR_MIGRATE_BUSY || cx.flg Reg.CH_FB_MIGRATE F.CH_FB_MIGRATE_BUSY

/-- The Granary, 0x3. -/
def Cx.refuses3 (cx : Cx) : Bool := cx.gleaning || cx.flg Reg.CH_GR_MIGRATE F.CH_GR_MIGRATE_BUSY

/-- The channel Drill, 0x8 (R459). -/
def Cx.refuses8 (cx : Cx) : Bool :=
  let g := cx.fld Reg.CH_DRILL_CFG F.CH_DRILL_CFG_STOP_GUARD_US
  g != 0 && cx.ch.drill.any fun e =>
    e.2.en && e.2.action != DrAct.stop &&
      decide (signed 32 (BitVec.ofNat 32 (e.2.time / 65536) - cx.ch.pwr.asked).toNat ≤ 1000 * g)

/-- The cipher port, 0x9. -/
def Cx.refuses9 (cx : Cx) : Bool := cx.ch.ds.cipherQ.any fun i => i.enc

/-- The downstream receiver, 0x6. -/
def Cx.refuses6 (cx : Cx) : Bool := !cx.ch.ds.cipherQ.isEmpty || cx.ch.lanes.any fun e => !e.2.isEmpty

/-- The first sub-block that refuses, in the order of R472. (DEDUCED, log entry 80) -/
def Cx.refuser (cx : Cx) : Option Nat :=
  if cx.refuses5 then some 5 else if cx.refuses1 then some 1 else if cx.refuses2 then some 2
  else if cx.refuses4 then some 4 else if cx.refuses3 then some 3 else if cx.refuses8 then some 8
  else if cx.refuses9 then some 9 else if cx.refuses6 then some 6
  else if cx.isStuSource then some 7 else none

/-- The entry ends without Stop, and the idle timer restarts; every sub-block resumes work (R469, R474). -/
def Cx.abortEnd (cx : Cx) : Cx := ((cx.setPhase Phase.run).idleRestart).drainCipher .none

/-- A sub-block refuses (R474): the first of them leaves nothing to restart. -/
def Cx.entryAbort (cx : Cx) (id : Nat) : Cx :=
  let cx := ((cx.inc Cnt.CH_STOP_REFUSED).inc (Cnt.CH_CNT_STOP_REF id)).put Reg.CH_STOP_REFUSER
    (BitVec.ofNat 32 (id + 2 ^ 31))
  let cx := cx.raise Ev.stopRefused id
  if id = 5 then cx.abortEnd else cx.setPhase Phase.aborting

/-- The hold cells latch (R484): TX_EN and frame port ready are low at the pins, and the lane outputs are held. -/
def Cx.latchPads (cx : Cx) : Cx :=
  ((cx.setPwr { cx.ch.pwr with lane := some cx.ch.laneOut }).setf Reg.CH_PWR_STATUS F.CH_PWR_STATUS_PAD_HELD 1).txOff

/-- Every sub-block has stopped (R472 steps 10 to 13). In Stop-dark the line island stops too.
(DEDUCED, log entry 50) -/
def Cx.entryStop (cx : Cx) : Cx :=
  let cx := (cx.measurementLost.setBursts []).latchPads
  let cx := cx.when (!cx.ch.pwr.watch) fun cx => cx.setDs { cx.ch.ds with cur := none }
  let now := cx.hl.stu.tick
  cx.setPwr { cx.ch.pwr with clkOff := true, seals := (List.range 50).map (cx.signature now), since := now }

/-- STOP_ENTRY: the sub-blocks are asked in order. (DEDUCED, log entry 80) -/
def Cx.askToStop (cx : Cx) : Cx :=
  if cx.phase ≠ Phase.entering ∨ cx.mode ≠ ModeCode.service ∨ cx.ch.coreStopped then cx
  else match cx.refuser with
    | some id => cx.entryAbort id
    | none => cx.entryStop

def execStopEntry (c : ChanId) (s : State) : Out := s.onChan c Cx.askToStop

/-- STOP_ABORT_DONE. -/
def execStopAbortDone (c : ChanId) (s : State) : Out :=
  s.onChan c fun cx => if cx.phase = Phase.aborting then cx.abortEnd else cx

/-- STOP_ENTERED (R472 step 14, R480, R482). (DEDUCED, log entry 80) -/
def Cx.stopEntered (cx : Cx) : Cx :=
  if cx.phase = Phase.entering ∧ cx.mode = ModeCode.service ∧ cx.ch.coreStopped then
    let w := b2n cx.ch.pwr.watch
    let cx := ((cx.setMode ModeCode.stop).setf Reg.CH_PWR_STATUS F.CH_PWR_STATUS_VARIANT w).setPhase Phase.stopped
    let cx := (cx.setf Reg.CH_PWR_STATUS F.CH_PWR_STATUS_REG_LP 1).inc Cnt.CH_CNT_PWR_STOPS
    let cx := cx.raise Ev.stopEntered (w + 2 * b2n cx.ch.pwr.forced)
    if cx.fld Reg.CH_WAKE_SRC F.CH_WAKE_SRC_SRC = 0 then cx
    else cx.startWake.inc Cnt.CH_CNT_PWR_WAKE_IN_ENTRY
  else cx

def execStopEntered (c : ChanId) (s : State) : Out := s.onChan c Cx.stopEntered

/-! ### Wake sources (R475) -/

/-- WAKE_REQUEST: a write of CH_PWR_CTL with WAKE = 1, or the firmware's request. The other sources reach the
sequencer within the rows in which they occur. (DEDUCED, log entry 79) -/
def execWakeRequest (c : ChanId) (w : WakeBy) (s : State) : Out :=
  match w with
  | .host v => s.aonWrite c fun cx => cx.pwrCtl (setF v F.CH_PWR_CTL_WAKE 1)
  | .firmware => s.onChan c fun cx => if cx.hl.fwUp then cx.wakeSource Wk.firmware else cx

/-- STOP_TIMER_EXPIRY: MAX_MS of Stop have passed. -/
def execStopTimerExpiry (c : ChanId) (s : State) : Out :=
  s.onChan c fun cx =>
    if cx.phase = Phase.stopped ∧ cx.fld Reg.CH_STOP_TIMER F.CH_STOP_TIMER_MAX_MS ≠ 0 then
      cx.wakeSource Wk.timer
    else cx

/-! ### Seals (R487 to R490) -/

/-- A bank is retired or switched (R524, R530): `store` 0 buffer, 1 tree, 2 context. -/
def Cx.bankRetired (cx : Cx) (store bank phys kind : Nat) : Cx :=
  let d := store + bank % 32 * 4 + phys * 2 ^ 7 + kind * 2 ^ 8
  (cx.raise Ev.bankRetired d).logDue LogKind.bankRetired [d]

/-- A fallow buffer bank that is free. -/
def Cx.freeFb (cx : Cx) : Option Nat := if cx.fbFree 0 then some 0 else if cx.fbFree 1 then some 1 else none

/-- Fallow bank `f` serves bank `b` (R313). -/
def Cx.fbServe (cx : Cx) (f b : Nat) : Cx :=
  (cx.setf Reg.CH_GR_BANKS (if f = 0 then F.CH_GR_BANKS_FB0_BANK else F.CH_GR_BANKS_FB1_BANK) b).setf
    Reg.CH_GR_BANKS (if f = 0 then F.CH_GR_BANKS_FB0_VALID else F.CH_GR_BANKS_FB1_VALID) 1

/-- Fallow bank `f` no longer serves, and is retired. -/
def Cx.fbRetire (cx : Cx) (f : Nat) : Cx :=
  (cx.setf Reg.CH_GR_BANKS (if f = 0 then F.CH_GR_BANKS_FB0_VALID else F.CH_GR_BANKS_FB1_VALID) 0).setf
    Reg.CH_GR_BANKS (if f = 0 then F.CH_GR_BANKS_FB0_RETIRED else F.CH_GR_BANKS_FB1_RETIRED) 1

/-- The cells of bank `b` are written with zero and valid ECC (R338). -/
def Cx.zeroBank (cx : Cx) (b : Nat) : Cx :=
  { cx with ch := { cx.ch with
    buf := cx.ch.buf.filter fun e => decide (e.1 < 131072 * b) || decide (131072 * (b + 1) ≤ e.1)
    badRows := cx.ch.badRows.filter fun r => match r with
      | .bufUe i => i.val / 512 != b
      | _ => true } }

/-- The seal of a physical buffer bank has failed (R338, R490). (DEDUCED, log entry 82) -/
def Cx.sealBuffer (cx : Cx) (p : Nat) : Cx × Bool :=
  match cx.served p with
  | none => if 24 ≤ p ∧ ¬ cx.fbRetired (p - 24) then ((cx.fbRetire (p - 24)).bankRetired 0 p (p - 24) 2, false) else (cx, false)
  | some b =>
    match cx.freeFb with
    | none => (cx, true)
    | some f =>
      let cx := if 24 ≤ p then cx.fbRetire (p - 24) else cx
      let cx := (((cx.fbServe f b).zeroBank b).toBitmap)
      let cx : Cx := { cx with ch := { cx.ch with gr := { cx.ch.gr with loss := cx.ch.gr.loss ++ [b] } } }
      (cx.bankRetired 0 b f 1, false)

/-- One failed group (R489, R490); true when it halts the channel. (DEDUCED, log entry 82) -/
def Cx.sealFail (cx : Cx) (g : Nat) : Cx × Bool :=
  let cx := if g < 32 then cx.setf Reg.CH_SEAL_FAIL_LO ⟨g, 1⟩ 1 else cx.setf Reg.CH_SEAL_FAIL_HI ⟨g - 32, 1⟩ 1
  let cx := (cx.inc Cnt.CH_CNT_PWR_SEAL_FAIL).raise Ev.sealFail g
  if g < 26 then cx.sealBuffer g
  else if g = 34 then
    if cx.flg Reg.CH_FB_TREE F.CH_FB_TREE_VALID then (cx, true)
    else if cx.flg Reg.CH_FB_TREE F.CH_FB_TREE_RETIRED then (cx, false)
    else ((cx.setf Reg.CH_FB_TREE F.CH_FB_TREE_RETIRED 1).bankRetired 1 8 0 2, false)
  else if g = 47 then
    if cx.flg Reg.CH_FB_CTX F.CH_FB_CTX_VALID then (cx, true)
    else if cx.flg Reg.CH_FB_CTX F.CH_FB_CTX_RETIRED then (cx, false)
    else ((cx.setf Reg.CH_FB_CTX F.CH_FB_CTX_RETIRED 1).bankRetired 2 12 0 2, false)
  else if g = 48 then ({ cx with ch := { cx.ch with stg := [] } }, false)
  else (cx, true)

/-- Failed groups in ascending order; the lowest that halts. -/
def Cx.sealFails (cx : Cx) : List Nat → Cx × Option Nat
  | [] => (cx, none)
  | g :: l =>
    let r := cx.sealFail g
    let t := r.1.sealFails l
    (t.1, if r.2 then some g else t.2)

/-- A correctable error in a read of step 4 of wake is counted as in a normal read (R489). -/
def Cx.sealCorrected (cx : Cx) (g : Nat) : Cx :=
  if g < 26 then cx.countCE (Reg.CH_GR_ERR g)
  else if g < 35 then (cx.countCE (Reg.CH_FB_ERR (g - 26))).inc Cnt.CH_CNT_CLS_TREE_ECC_CORR
  else if g < 48 then cx.countCE (Reg.CH_FB_ERR (g - 26))
  else cx

/-! ### The wake sequence (R479) -/

/-- The core clock runs again, and the heartbeat's timeout with it; a paused copier goes on from its row (R529).
(DEDUCED, log entry 30) -/
def Cx.clockOn (cx : Cx) : Cx :=
  let pwr := { cx.ch.pwr with clkOff := false, slept := cx.ch.pwr.slept + (cx.hl.stu.tick - cx.ch.pwr.since) }
  { cx with ch := { cx.ch with pwr := pwr, fm := { cx.ch.fm with beatAt := cx.hl.stu.tick } } }

/-- The time unit restarts (R428). -/
def Cx.wakeTime (cx : Cx) : Cx :=
  let d := (cx.hl.stu.tick - cx.ch.pwr.since).toNat
  let cx : Cx := { cx with ch := cx.ch.addPhase (cx.ch.phaseDrift d) }
  if cx.isStuSource then cx
  else if cx.tuServo.st = ServoState.locked then cx.putTuServo cx.tuServo.toHold else cx

/-- After Stop-dark the guard starts in NOSYNC, nothing has come from the framer yet, and the epoch increments once. -/
def Cx.wakeGuard (cx : Cx) : Cx :=
  if cx.ch.pwr.watch then cx
  else
    let old := cx.guard
    let cx := (cx.setDs { cx.ch.ds with cur := none, prevSfc := none }).setf Reg.CH_DS_STATUS
      F.CH_DS_STATUS_FRAMER_SYNC 0
    let cx := cx.when (old != Guard.accept) Cx.bumpEpoch
    ((((cx.setGuard Guard.nosync).setCount 0).setBase false).setRun 0).afterGuard old

/-- The state in which the sub-blocks resume (R479 steps 5 to 7). `retired`: a bank was retired in step 5; `glean`: a
buffer bank was, so that glean starts (R329). At its end firmware follows the guard (R481). (DEDUCED, log entry 30) -/
def Cx.wakeUp (cx : Cx) (retired glean : Bool) : Cx :=
  let d := (cx.hl.stu.tick - cx.ch.pwr.since).toNat
  let cx := ((cx.setMode ModeCode.service).deliverArms).deliverGates
  let cx := ((cx.wakeTime.wakeGuard).drillWake d).deliverLines
  let cx := ((cx.setPhase Phase.run).inc Cnt.CH_CNT_PWR_WAKES).reasmWake.pmDue
  let src := cx.fld Reg.CH_WAKE_SRC F.CH_WAKE_SRC_SRC
  let pat := cx.fld Reg.CH_WAKE_SRC F.CH_WAKE_SRC_PATTERN
  let cx := (cx.raise Ev.wake (src + pat * 2 ^ 16 + b2n retired * 2 ^ 24)).idleRestart
  let fm := { cx.ch.fm with beatAt := cx.hl.stu.tick }
  (({ cx with ch := { cx.ch with fm := fm } } : Cx).when glean Cx.gleanStart).fwCatchUp

/-- The wake ends: seals are checked, and the channel returns to Service or halts. (DEDUCED, log entry 80) -/
def Cx.wakeComplete (cx : Cx) (flips : List SealFlip) (ues ces : List Nat) : Cx :=
  if cx.phase ≠ Phase.waking then cx
  else
    let cx := flips.foldl Cx.flip cx
    let fails := cx.sealFailures flips ues
    let cx := cx.clockOn.setf Reg.CH_PWR_STATUS F.CH_PWR_STATUS_REG_LP 0
    let cx := ces.foldl Cx.sealCorrected cx
    let banks (cx : Cx) : Word × Word × Word :=
      (cx.get Reg.CH_GR_BANKS, cx.get Reg.CH_FB_TREE, cx.get Reg.CH_FB_CTX)
    let old := banks cx
    let r := cx.sealFails fails
    let cx := r.1
    match r.2 with
    | some g => (cx.halt Halt.retentionLost g).wakeTime
    | none => cx.wakeUp (banks cx != old) (cx.get Reg.CH_GR_BANKS != old.1)

/-! ### Brown-out and the pads (R484, R485, R491) -/

/-- The detector is armed from the start of step 14 of entry, at the stop of the clock, to the end of step 2 of the wake,
12.1 µs after the wake began (R472, R479, R491). (DEDUCED, log entry 80) -/
def Cx.brownOutArmed (cx : Cx) : Bool :=
  cx.ch.coreStopped && !(cx.phase == Phase.waking && decide (12100 ≤ (cx.hl.stu.tick - cx.ch.pwr.wakeAt).toNat))

/-- BROWN_OUT. -/
def Cx.brownOut (cx : Cx) : Cx :=
  if cx.brownOutArmed then
    let cx := cx.setf Reg.CH_PWR_STATUS F.CH_PWR_STATUS_BROWN_OUT 1
    let cx := cx.setPwr { cx.clockOn.ch.pwr with seals := [] }
    (cx.setDs { cx.ch.ds with cur := none }).halt Halt.brownOut 0
  else cx

def execBrownOut (c : ChanId) (s : State) : Out := s.onChan c Cx.brownOut

/-- PAD_RELEASE: the pins follow the channel's own outputs. -/
def Cx.padRelease (cx : Cx) : Cx :=
  if cx.modeIn [ModeCode.acquire, ModeCode.service] && cx.phase == Phase.run then
    (cx.setPwr { cx.ch.pwr with lane := none }).setf Reg.CH_PWR_STATUS F.CH_PWR_STATUS_PAD_HELD 0
  else cx

def execPadRelease (c : ChanId) (s : State) : Out := s.aonWrite c Cx.padRelease

/-! ### The budget (R493, R496 to R498) -/

/-- Tokens of an operating point of the host port island and of the management island. -/
def pointTokens (mg : Bool) (i : Nat) : Nat :=
  if mg then [4, 7, 10, 14].getD i 14 else [12, 16, 20, 24].getD i 24

def dvfsF (mg : Bool) : Field := if mg then F.HL_DVFS_STATUS_MG_F else F.HL_DVFS_STATUS_HP_F
def dvfsV (mg : Bool) : Field := if mg then F.HL_DVFS_STATUS_MG_V else F.HL_DVFS_STATUS_HP_V

/-- Tokens that an island holds: a frequency increase takes its tokens before it starts, and a decrease
releases them when it completes (R495). -/
def Headland.islandTokens (h : Headland) (mg : Bool) : Nat :=
  let t := pointTokens mg (h.fld Reg.HL_DVFS_STATUS (dvfsF mg))
  match h.dvfs with
  | some d => if d.mg = mg ∧ d.volt = false then max t (pointTokens mg d.index) else t
  | none => t

/-- Floor of a channel (R496). -/
def Chan.floor (c : Chan) : Nat :=
  if c.mode = ModeCode.disabled then 0
  else if c.mode = ModeCode.stop then
    if c.fld Reg.CH_PWR_STATUS F.CH_PWR_STATUS_PHASE = Phase.waking then 30
    else if c.flg Reg.CH_PWR_STATUS F.CH_PWR_STATUS_VARIANT then 5 else 0
  else 30

def State.floors (s : State) : Nat :=
  (s.chans.toList.map Chan.floor).sum + s.hl.islandTokens false + s.hl.islandTokens true + 12

/-- The budget: TOKENS, which act as 800 above 800. -/
def Headland.budget (h : Headland) : Nat := min 800 (h.fld Reg.HL_PWR_BUDGET F.HL_PWR_BUDGET_TOKENS)

/-- Background work of a channel: glean or a migration, and tree and context loads (R496). (DEDUCED, log entry 84) -/
def Cx.urgent (cx : Cx) : Nat := b2n cx.gleaning + b2n cx.migrating
/-- DEDUCED, log entry 84. -/
def Cx.loads (cx : Cx) : Nat := 2 * b2n cx.movesMemory

/-- Take from what is left, up to a demand: what is given, and what is left. (DEDUCED, log entry 84) -/
def takeUp : Nat → List Nat → List Nat × Nat
  | r, [] => ([], r)
  | r, d :: ds =>
    let g := min d r
    let t := takeUp (r - g) ds
    (g :: t.1, t.2)

/-- BUDGET, source 429. -/
def State.budgetEvent (s : State) (reason : Nat) : State :=
  { s with hl := s.hl.raise Ev.budget (reason + s.floors % 1024 * 65536) }

/-- Put the channel grants into HL_PWR_GRANT. -/
def Headland.putGrants (h : Headland) : Nat → List Nat → Headland
  | _, [] => h
  | n, g :: l => (h.put (Reg.HL_PWR_GRANT n) (BitVec.ofNat 32 g)).putGrants (n + 1) l

/-- BUDGET_ARBITRATE (R496 to R498). From FREEZE to TRANSFER the mover has its ceiling first (R537).
(DEDUCED, log entries 83 and 84) -/
def State.arbitrate (s : State) : State :=
  let fl := s.floors
  let above := decide (s.hl.budget < fl)
  let views := (List.finRange 17).map fun c => s.view c
  let moving : Bool := (List.range 8).any fun n => s.hl.mvState n == MvState.running || s.hl.mvState n == MvState.finishing
  let first : Bool := s.hl.hoPhase == 2 || s.hl.hoPhase == 3
  -- shares above the floors: the mover in a handover, busy channels, the mover, the other channels
  let want (b : Bool) : Nat := if b then 10 else 0
  let busy := views.map fun cx => if cx.urgent = 0 ∨ cx.ch.floor < 30 then 0 else cx.urgent + cx.loads
  let other := views.map fun cx => if cx.urgent = 0 ∧ cx.ch.floor = 30 then cx.loads else 0
  let r := takeUp (s.hl.budget - fl) (want first :: busy ++ want (moving && !first) :: other)
  let g := r.1
  let mover := g.getD 0 0 + g.getD 18 0
  let bands := (List.range 17).map fun n => g.getD (1 + n) 0 + g.getD (19 + n) 0
  let grants := List.zipWith (fun c b => Chan.floor c + b) s.chans.toList bands ++
    [s.hl.islandTokens false + mover, s.hl.islandTokens true, 12]
  let h := s.hl.putGrants 0 grants
  let h := (h.setf Reg.HL_PWR_STATUS F.HL_PWR_STATUS_FLOORS fl).setf Reg.HL_PWR_STATUS
    F.HL_PWR_STATUS_GRANTED grants.sum
  let was := h.flg Reg.HL_PWR_STATUS F.HL_PWR_STATUS_OVER
  let s : State := { s with hl := h.setf Reg.HL_PWR_STATUS F.HL_PWR_STATUS_OVER (b2n above) }
  if above && !was then ({ s with hl := s.hl.inc Cnt.HL_CNT_PWR_OVER } : State).budgetEvent 1 else s

def execBudgetArbitrate (s : State) : Out := s.alive State.arbitrate

/-- BUDGET_WRITE: a write of HL_PWR_BUDGET (R497); one that changes nothing is none (R656). -/
def State.budgetWrite (s : State) (v : Word) : State :=
  let t := getF v F.HL_PWR_BUDGET_TOKENS
  if t = s.hl.fld Reg.HL_PWR_BUDGET F.HL_PWR_BUDGET_TOKENS then s
  else if t < s.floors then s.budgetEvent 2
  else { s with hl := s.hl.setf Reg.HL_PWR_BUDGET F.HL_PWR_BUDGET_TOKENS t }

def execBudgetWrite (v : Word) (s : State) : Out := s.access fun s => s.budgetWrite v

/-! ### DVFS (R493 to R495) -/

/-- The reason for which a request is rejected; 0 for none (R494). (DEDUCED, log entry 83) -/
def State.dvfsReject (s : State) (mg volt : Bool) (i : Nat) : Nat :=
  let f := s.hl.fld Reg.HL_DVFS_STATUS (dvfsF mg)
  let v := s.hl.fld Reg.HL_DVFS_STATUS (dvfsV mg)
  if !volt && decide (v < i) then 1
  else if volt && decide (i < f) then 2
  else if !volt && decide (f < i) && decide (s.hl.budget < s.floors + pointTokens mg i - pointTokens mg f) then 3
  else if s.hl.dvfs.isSome then 4
  else 0

def State.dvfsRequest (s : State) (mg volt : Bool) (i : Nat) : State :=
  let r := s.dvfsReject mg volt i
  if r ≠ 0 then
    let h := (s.hl.inc Cnt.HL_CNT_DVFS_REJECT).setf Reg.HL_DVFS_STATUS F.HL_DVFS_STATUS_LAST_REJECT r
    { s with hl := h.raise Ev.dvfsReject (b2n mg + 2 * b2n volt + 4 * i + 16 * r) }
  else if s.hl.fld Reg.HL_DVFS_STATUS (if volt then dvfsV mg else dvfsF mg) = i then s
  else
    { s with hl := { s.hl.setf Reg.HL_DVFS_STATUS F.HL_DVFS_STATUS_BUSY 1 with dvfs := some ⟨mg, volt, i⟩ } }

/-- DVFS_FREQ_REQUEST and DVFS_VOLT_REQUEST: a write of HL_DVFS_REQ with GO = 1. -/
def execDvfsFreqRequest (mg : Bool) (i : Fin 4) (s : State) : Out :=
  s.access fun s => s.dvfsRequest mg false i
def execDvfsVoltRequest (mg : Bool) (i : Fin 4) (s : State) : Out :=
  s.access fun s => s.dvfsRequest mg true i

/-- The change in progress completes. (DEDUCED, log entry 83) -/
def Headland.dvfsDone (h : Headland) (volt : Bool) : Headland :=
  match h.dvfs with
  | some d =>
    if d.volt = volt then
      let h := h.setf Reg.HL_DVFS_STATUS (if volt then dvfsV d.mg else dvfsF d.mg) d.index
      ({ h.setf Reg.HL_DVFS_STATUS F.HL_DVFS_STATUS_BUSY 0 with dvfs := none } : Headland).inc Cnt.HL_CNT_DVFS_DONE
    else h
  | none => h

def execDvfsFreqDone (s : State) : Out := s.onHl fun h => h.dvfsDone false
def execDvfsVoltDone (s : State) : Out := s.onHl fun h => h.dvfsDone true

end Sys2Proof.Machine
end

