-- ==== Sys2Proof/Machine/Handover.lean ====
section
/-!
DEFINITION. Channel handover (R531 to R548): its phases, what it carries, its aborts, and the configuration
image; with the end of a wake, for which a handover may wait.
-/

namespace Sys2Proof.Machine

open Sys2Proof

/-! Phases (R534). Phase 0 with a handover present is the wait for a source in Stop (R533). -/
namespace HoPhase
def prepare : Nat := 1
def freeze : Nat := 2
def transfer : Nat := 3
def switch_ : Nat := 4
def resume : Nat := 5
end HoPhase

/-- Channel of a number: those of a handover lie below 17. -/
def chanOf (n : Nat) : ChanId := ⟨n % 17, Nat.mod_lt n (by decide)⟩

def State.srcView (s : State) (ho : Ho) : Cx := s.view (chanOf ho.src)
def State.tgtView (s : State) (ho : Ho) : Cx := s.view (chanOf ho.tgt)
def State.onSrc (s : State) (ho : Ho) (f : Cx → Cx) : State := s.modChan (chanOf ho.src) f
def State.onTgt (s : State) (ho : Ho) (f : Cx → Cx) : State := s.modChan (chanOf ho.tgt) f
def State.mapHl (s : State) (f : Headland → Headland) : State := { s with hl := f s.hl }

/-- DETAIL of source 411. -/
def Ho.detail (ho : Ho) (phase result : Nat) : Nat :=
  ho.src + ho.tgt * 2 ^ 8 + phase * 2 ^ 16 + result * 2 ^ 20

def Headland.setHoPhase (h : Headland) (p : Nat) : Headland :=
  h.setf Reg.HL_FM_STATUS F.HL_FM_STATUS_HO_PHASE p

/-- The fallow manager's sets run while it copies, in PREPARE and TRANSFER (R533, R534). (DEDUCED, log entry 92) -/
def Headland.hoSets (h : Headland) (on : Bool) : Headland :=
  let st := if on then MvState.running else MvState.idle
  (h.setMvState 6 st).setMvState 7 st

/-- A phase has ended and the next begins. -/
def Headland.hoNext (h : Headland) (ho : Ho) : Headland :=
  let p := h.hoPhase
  ((h.setHoPhase (p + 1)).hoSets (p + 1 == HoPhase.transfer)).raise Ev.handover (ho.detail p HoResult.continue_)

/-- The handover ends with a result (R545, R547, R574). (DEDUCED, log entry 96) -/
def Headland.hoEnd (h : Headland) (ho : Ho) (result : Nat) : Headland :=
  let d := ho.detail h.hoPhase result
  let h := ((h.setHoPhase 0).hoSets false).setf Reg.HL_FM_STATUS F.HL_FM_STATUS_HO_BUSY 0
  let h := { h.setf Reg.HL_FM_HO F.HL_FM_HO_RESULT result with ho := none }
  (h.raise Ev.handover d).logDue LogKind.handover ho.src [d, (h.get Reg.HL_FM_HO_WINDOW).toNat]

/-- Held sheaf arms and gate actions are delivered (R302, R457, R543). (DEDUCED, log entry 95) -/
def Cx.deliverHeld (cx : Cx) : Cx := cx.deliverArms.deliverGates

/-! ### Aborts (R547) -/

/-- A frozen source returns to the mode it left; its pads stay held. -/
def Cx.hoReturn (cx : Cx) (ho : Ho) : Cx :=
  if cx.mode = ModeCode.handover ∧ cx.hoRole = 1 then
    let cx := cx.setMode ho.mode
    let cx := if ho.mode = ModeCode.acquire then cx.setAct ho.act else cx.idleRestart
    cx.triggerAll.tuCheck
  else cx

/-- The target of an aborted handover enters Disabled, and keeps CH_MODE.FALLOW. -/
def Cx.hoDrop (cx : Cx) : Cx := if cx.mode = ModeCode.handover then cx.setMode ModeCode.disabled else cx

/-- The handover aborts. Arms and gate actions held for a frozen source are then delivered to it.
(DEDUCED, log entry 95) -/
def State.hoAbort (s : State) (ho : Ho) (result : Nat) : State :=
  let s := (s.onTgt ho Cx.hoDrop).onSrc ho fun cx => cx.hoReturn ho
  let s := s.mapHl fun h => (h.inc Cnt.HL_CNT_HO_ABORT).hoEnd ho result
  s.onSrc ho fun cx => if cx.ch.coreStopped ∨ cx.mode = ModeCode.stop then cx else cx.deliverHeld

/-! ### Start (R533, R534) -/

/-- PREPARE begins: the target enters Handover. -/
def State.hoStart (s : State) (ho : Ho) : State :=
  let s := s.mapHl fun h => { (h.setHoPhase HoPhase.prepare).hoSets true with ho := some { ho with waking := false } }
  s.onTgt ho fun cx => (cx.setMode ModeCode.handover).setf Reg.CH_MODE F.CH_MODE_HO_ROLE 2

/-- What the fallow manager follows without a command: a target that halts before SWITCH, and a source whose wake
has ended. (DEDUCED, log entry 93) -/
def State.hoPoll (s : State) : State :=
  match s.hl.ho with
  | none => s
  | some ho =>
    if (s.tgtView ho).mode = ModeCode.halted ∧ s.hl.hoPhase < HoPhase.resume then
      s.hoAbort ho HoResult.abortTarget
    else if ho.waking = false then s
    else
      let cx := s.srcView ho
      if cx.mode = ModeCode.halted ∨ (cx.modeIn [ModeCode.acquire, ModeCode.service] ∧ cx.phase = Phase.run) then
        s.hoStart ho
      else s

/-- WAKE_COMPLETE (R479, R489): `flips` is what retention changed in the groups, `ues` are the groups in which a read of
step 4 shows an uncorrectable error, and `ces` holds the group of each corrected error. -/
def execWakeComplete (c : ChanId) (flips : List SealFlip) (errs : SealErrs) (s : State) : Out :=
  s.alive fun s =>
    if s.hl.resetRuns c then s
    else (s.modChan c fun cx => cx.wakeComplete flips (errs.ues.map Fin.val) (errs.ces.map Fin.val)).hoPoll

def Headland.wedgedBit (h : Headland) (c : Nat) : Bool := h.flg Reg.HL_FM_WEDGED ⟨c, 1⟩
def Headland.fallowCh (h : Headland) : Nat := h.fld Reg.HL_FM_STATUS F.HL_FM_STATUS_FALLOW_CH
def Headland.fallowValid (h : Headland) : Bool := h.flg Reg.HL_FM_STATUS F.HL_FM_STATUS_FALLOW_VALID

/-- A handover or a fallow test runs, or a mover set of the fallow manager is not idle (R532). -/
def Headland.fmBusy (h : Headland) : Bool :=
  h.ho.isSome || h.testing.isSome || h.mvState 6 != MvState.idle || h.mvState 7 != MvState.idle

/-- The first status of R532 that refuses a HANDOVER. (DEDUCED, log entry 94) -/
def State.hoCheck (s : State) (src tgt : Nat) (buffer : DWord) : Nat :=
  let sc := s.view (chanOf src)
  let designated := s.hl.fallowValid && s.hl.fallowCh == tgt
  if s.hl.fmBusy then MbStatus.busy
  else if src = tgt ∨ (designated ∧ (s.view (chanOf tgt)).mode ≠ ModeCode.disabled) ∨
      (sc.modeIn [ModeCode.acquire, ModeCode.service, ModeCode.stop, ModeCode.halted] = false ∧
        s.hl.wedgedBit src = false) then MbStatus.badState
  else if designated = false then MbStatus.noSpare
  else if s.hl.flg Reg.HL_FM_STATUS F.HL_FM_STATUS_TESTED = false then MbStatus.notTested
  else if buffer.toNat % 4096 ≠ 0 then MbStatus.badBuffer
  else MbStatus.ok

/-- HANDOVER is accepted. A source in Stop, or on its way into Stop, is woken first. -/
def State.hoAccept (s : State) (src tgt : Nat) (buffer : DWord) (hostCfg : Bool) : State :=
  let ho : Ho := ⟨src, tgt, buffer, hostCfg, true, 0, 0, 0, 0, 0, none, none, [], 0, false, none⟩
  let s := s.mapHl fun h =>
    let h := (h.setf Reg.HL_FM_STATUS F.HL_FM_STATUS_HO_BUSY 1).setf Reg.HL_FM_STATUS F.HL_FM_STATUS_SLOW 0
    { h.put Reg.HL_FM_HO (BitVec.ofNat 32 (src + tgt * 2 ^ 8)) with ho := some ho }
  let cx := s.srcView ho
  if cx.phase = Phase.run ∨ cx.mode = ModeCode.halted ∨ s.hl.wedgedBit src then s.hoStart ho
  else s.onSrc ho fun cx => cx.wakeSource Wk.firmware

/-- HANDOVER (R533). (DEDUCED, log entry 94) -/
def execHandover (m : CmdHead) (src tgt : Fin 32) (buffer : DWord) (hostCfg : Bool) (s : State) : Out :=
  s.devCommand m 0x0201 true false fun s =>
    if 16 < src.val ∨ 16 < tgt.val then (s, MbStatus.badArg, [])
    else
      let st := s.hoCheck src tgt buffer
      (if st = MbStatus.ok then s.hoAccept src tgt buffer hostCfg else s, st, [])

/-! ### PREPARE (R534, R536, R540) -/

/-- Bits of a register that the host writes. -/
def chRw (off : Nat) : Word :=
  match findRow chRows off with
  | some r => BitVec.ofNat 32 r.rw
  | none => 0

/-- Apply host-written values to a channel's registers; CH_LANE is the fallow manager's (R542). -/
def Chan.applyConfig (c : Chan) (l : List (Nat × Word)) : Chan :=
  l.foldl (fun c e =>
    if e.1 = Reg.CH_LANE then c
    else c.put e.1 ((c.get e.1 &&& ~~~chRw e.1) ||| (e.2 &&& chRw e.1))) c

/-- The configuration part of a channel's register image, over the registers listed in either channel. -/
def Chan.config (src tgt : Chan) : List (Nat × Word) :=
  (src.regs ++ tgt.regs).map fun e => (e.1, src.get e.1)

/-- What PREPARE exports into the host buffer: the configuration, unless the host supplies it, and, from a source that
is not wedged, TREE space (R539, R540). (DEDUCED, log entry 92) -/
def Chan.exportConfig (src tgt : Chan) (cfg : Option (List (Nat × Word))) (wedged : Bool) : HoImage :=
  ⟨cfg.getD (src.config tgt), if wedged then none else some src.tree, none⟩

/-- The target takes over from the image what PREPARE exported. (DEDUCED, log entry 92) -/
def Chan.importConfig (tgt : Chan) (i : HoImage) : Chan :=
  let c := tgt.applyConfig i.config
  match i.tree with
  | some t => { c with tree := t }
  | none => c

/-- Transfers of the fallow manager's sets halt: each is counted and raised, the set is cleared, and the transfer is retried
once; a second halt ends the handover (R519, R547). (DEDUCED, log entry 92) -/
def Headland.lentHalts (h : Headland) (n : Nat) : Nat → Headland
  | 0 => h
  | k + 1 => ((h.inc Cnt.HL_CNT_MV_HALT).raise (Ev.moverHalt + n) (Config.lentHalt h.stu.tick).toNat).lentHalts n k

/-- DEDUCED, log entry 92. -/
def State.hoHalts (s : State) (ho : Ho) (n halts : Nat) : State :=
  if halts = 0 then s
  else
    let ho := { ho with halts := ho.halts + halts }
    let s := s.mapHl fun h => { h.lentHalts n halts with ho := some ho }
    if 2 ≤ ho.halts then s.hoAbort ho HoResult.abortMover else s

/-- MOVER_ABORT (R520). It halts a transfer of the fallow manager's sets, as any halt of theirs (R547). -/
def State.moverAbort (s : State) (n : Nat) : State :=
  match s.hl.ho with
  | some ho =>
    if 6 ≤ n ∧ s.hl.mvState n = MvState.running then
      (s.mapHl fun h => h.setf (Reg.MV_STATUS n) F.MV_STATUS_PENDING 0).hoHalts ho n 1
    else { s with hl := s.hl.mvAbort n }
  | none => { s with hl := s.hl.mvAbort n }

def execMoverAbort (n : Fin 8) (s : State) : Out := s.access fun s => s.moverAbort n

/-- Bytes of a segment. -/
def SegData.len : SegData → Nat
  | .bytes bs => bs.length
  | .space n _ => n

/-- The fallow manager writes a segment at an offset of the host buffer (R539). -/
def Ho.seg (ho : Ho) (off : Nat) (d : SegData) : ImageSeg := ⟨ho.buffer + BitVec.ofNat 64 off, d⟩

/-- The register image of registers (R539): its layout belongs to the firmware, and it has room for 60 KiB. -/
def regImageOf (l : List (Nat × Word)) : List Byte :=
  (Config.regImage (l.foldl (fun t e => Sparse.set (fun _ => 0) t e.1 e.2) [])).take 61440

/-- Segments are written to the host buffer; those that the sets carry are read back into the target, so that each of
their bytes is written twice (R522, R539). Every write is a part of one of them that crosses no 256 B boundary (R585), and
is answered before the phase ends. (DEDUCED, log entry 92) -/
def Headland.hoWrite (h : Headland) (ho : Ho) (segs : List ImageSeg) (moved : Nat) : Headland :=
  { h.add Cnt.HL_CNT_MV_BYTES (2 * moved) with ho := some { ho with written := ho.written ++ segs } }

/-- VERSION of the host's image is one that the running image accepts: from REG_MIN to the one that it writes itself
(R540, R566). (DEDUCED, log entry 97) -/
def Headland.versionOk (h : Headland) (v : Nat) : Bool :=
  decide (h.runImage.regMin ≤ v) && decide (v ≤ h.runImage.regCur)

/-- What PREPARE writes to the host buffer: the configuration part of the register image, unless the host supplies it, and
TREE space. -/
def HoImage.prepared (i : HoImage) (ho : Ho) : List ImageSeg :=
  (if ho.hostCfg then [] else [ho.seg 0x1000 (.bytes (regImageOf i.config))]) ++
    (match i.tree with
      | some t => [ho.seg 0x10000 (.space 0x200000 t)]
      | none => [])

/-- HANDOVER_PREPARE_DONE. `halts` counts the halts of the mover sets. `version` and `cfg` are what the host's image
holds: its VERSION, and its registers. What passes to the target passes through the image in the host buffer (R31).
(DEDUCED, log entry 92) -/
def State.hoPrepared (s : State) (ho : Ho) (halts : Nat) (version : Nat) (cfg : List (Nat × Word)) : State :=
  let s := s.hoHalts ho 6 halts
  match s.hl.ho with
  | none => s
  | some ho =>
    if ho.hostCfg && !s.hl.versionOk version then s.hoAbort ho HoResult.abortCheck
    else
      let src := (s.srcView ho).ch
      let image := src.exportConfig (s.tgtView ho).ch (if ho.hostCfg then some cfg else none) (s.hl.wedgedBit ho.src)
      let ho := { ho with image := some image }
      let s := s.mapHl fun h => h.hoWrite ho (image.prepared ho) (if image.tree.isSome then 0x200000 else 0)
      let s := s.onTgt ho fun cx => { cx with ch := cx.ch.importConfig image }
      s.mapHl fun h => h.hoNext ho

/-- A row of the handover acts in its phase, when nothing has ended the handover before. -/
def State.hoIn (s : State) (phase : Nat) (f : Ho → State → State) : Out :=
  s.alive fun s =>
    let s := s.hoPoll
    match s.hl.ho with
    | some ho => if s.hl.hoPhase = phase ∧ ho.waking = false then f ho s else s
    | none => s

def execHandoverPrepareDone (halts : Nat) (version : BitVec 16) (cfg : List (BitVec 16 × Word)) (s : State) : Out :=
  s.hoIn HoPhase.prepare fun ho s =>
    s.hoPrepared ho halts version.toNat (cfg.map fun e => (e.1.toNat, e.2))

/-! ### FREEZE (R538) -/

/-- The host port retires the writes of the stream in order. -/
def Cx.retire (cx : Cx) : Nat → Cx
  | 0 => cx
  | n + 1 => match cx.ch.stream.items with
    | [] => cx
    | .data _ _ _ :: _ => cx.popWrite.retire n
    | _ => cx.ownHead.retire n

/-- Steps 1 to 3 for a live source. (DEDUCED, log entry 50) -/
def Cx.freezeLive (cx : Cx) : Cx :=
  let cx := ((cx.setMode ModeCode.handover).setf Reg.CH_MODE F.CH_MODE_HO_ROLE 1).tuCheck
  let sent := ((cx.ch.us.bursts.filter Burst.started).map fun b => b.done.length).sum
  let cx := times Cx.frameSent sent cx
  let rest := cx.ch.us.bursts.filter fun b => !b.started
  let missed := (rest.map fun b => b.grants.length).sum
  let cx := cx.setBursts rest
  (cx.usDiscard).onHl fun h => h.add Cnt.HL_CNT_HO_GRANTS_MISSED missed

/-- A condition of R535 for the window's bound of 1 ms does not hold: both DVFS islands at index 3, and tokens for the
mover's ceiling above the floors (R537). -/
def State.hoTight (s : State) : Bool :=
  s.hl.fld Reg.HL_DVFS_STATUS F.HL_DVFS_STATUS_HP_F != 3 || s.hl.fld Reg.HL_DVFS_STATUS F.HL_DVFS_STATUS_MG_F != 3 ||
    decide (s.hl.budget < s.floors + 10)

/-- HANDOVER_FREEZE; `retired`: step 4 ends in time. A source that was disabled meanwhile is not frozen (R58).
(DEDUCED, log entry 90) -/
def State.hoFreeze (s : State) (ho : Ho) (retired : Bool) : State :=
  let cx := s.srcView ho
  let kind := if s.hl.wedgedBit ho.src then 2 else if cx.mode = ModeCode.halted then 1 else 0
  if kind = 0 ∧ cx.modeIn [ModeCode.acquire, ModeCode.service] = false then s
  else
  let ho := { ho with kind := kind, mode := cx.mode, act := cx.actState, freeze := s.hl.stu.tick }
  let s := s.mapHl fun h => { h with ho := some ho }
  let s := if kind = 0 then s.onSrc ho Cx.freezeLive else s
  if kind = 0 ∧ retired = false then s.hoAbort ho HoResult.abortStream
  else
    let s := if kind = 0 then s.onSrc ho fun cx => cx.retire (8 * cx.ch.stream.items.length + 8) else s
    let s := s.onSrc ho Cx.latchPads
    let cx := s.srcView ho
    let ho := { ho with
      sfc := cx.dsSfc, slow := s.hoTight
      seed := if kind ≠ 2 ∧ cx.guard = Guard.accept then some cx.dsSfc else none }
    s.mapHl fun h => ({ h with ho := some ho } : Headland).hoNext ho

/-- DEDUCED, log entry 90. -/
def execHandoverFreeze (retired : Bool) (s : State) : Out :=
  s.hoIn HoPhase.freeze fun ho s => s.hoFreeze ho retired

/-! ### TRANSFER (R539, R541, R546) -/

/-- Registers that belong to the instance rather than to the channel state carried. -/
def ownReg (off : Nat) : Bool :=
  [Reg.CH_MODE, Reg.CH_HALT_CAUSE, Reg.CH_HALT_TIME, Reg.CH_RESET, Reg.CH_PWR_STATUS, Reg.CH_WAKE_SRC,
    Reg.CH_STOP_REFUSER, Reg.CH_SEAL_FAIL_LO, Reg.CH_SEAL_FAIL_HI, Reg.CH_LANE, Reg.CH_GR_BANKS, Reg.CH_GR_MIGRATE,
    Reg.CH_FB_TREE, Reg.CH_FB_CTX, Reg.CH_FB_MIGRATE, Reg.CH_PORT_STATUS, Reg.CH_ACT_STATUS,
    Reg.CH_DS_STATUS].contains off ||
    (decide (Reg.CH_GR_ERR 0 ≤ off) && decide (off ≤ Reg.CH_GR_ERR 25)) ||
    (decide (Reg.CH_FB_ERR 0 ≤ off) && decide (off ≤ Reg.CH_FB_ERR 21))

/-- Counters of the always-on island stay with the instance. -/
def ownCnt (off : Nat) : Bool := decide (0xC100 ≤ off) && decide (off < 0xC200)

/-- The table with the keys of `p` from one table and the others from another. -/
def mergeTables {α : Type} [DecidableEq α] (d : Nat → α) (p : Nat → Bool) (own other : Sparse α) : Sparse α :=
  (other.filter fun e => !p e.1).foldl (fun t e => Sparse.set d t e.1 e.2) (own.filter fun e => p e.1)

/-- The cell of a buffer address, and of a CONTEXT address in the cell table, is allocated. -/
def Cx.bufKept (cx : Cx) (a : Nat) : Bool := (cx.cell (a / 256)).alloc
def Cx.ctxKept (cx : Cx) (a : Nat) : Bool :=
  if cellAddr 0 ≤ a ∧ a < cellAddr numCells then (cx.cell ((a - cellAddr 0) / 4)).alloc else true

/-- A claimed cell is handed to its frame by NEXT, LAST, HEAD, OWNER and REFS; LOST is not among them.
(DEDUCED, log entry 60) -/
def Cx.clearLost (cx : Cx) : Nat → Cx
  | 0 => cx
  | n + 1 =>
    let c := cx.cell n
    (if c.lost then cx.setCell n { c with lost := false } else cx).clearLost n

/-- Partly sent frames of a Halted source can no longer finish; they were counted at the halt (R203).
(DEDUCED, log entry 96) -/
def Cx.dropSent (cx : Cx) : Cx :=
  (List.range 256).foldl (fun cx q =>
    match cx.txHead q with
    | some f => if 0 < f.sent then (cx.txPop q).releaseFrame f.frame else cx
    | none => cx) cx

/-- What TRANSFER exports of the source into the host buffer (R539); what the image does not hold is at its reset
value. (DEDUCED, log entries 60 and 91) -/
def Cx.exportFull (src : Cx) (seed : Option Nat) : Chan :=
  let sc := src.ch
  let r := Chan.reset 0
  let c : Chan := { sc with
    regs := sc.regs.filter fun e => !ownReg e.1
    cnts := sc.cnts.filter fun e => !ownCnt e.1
    latch := [], badRows := [], armHeld := [], keys := [], stg := [], stream := r.stream
    ctxm := sc.ctxm.filter fun e => src.ctxKept e.1
    buf := sc.buf.filter fun e => src.bufKept e.1
    rings := { sc.rings with reads := [], stopLines := [] }
    gr := ⟨[], sc.gr.loss, none, [], []⟩
    ds := ⟨none, none, seed.map fun x => (x, 16), [], sc.ds.entry, sc.ds.resume⟩
    us := { sc.us with txEn := false, bld := false, bursts := [], windows := [], trip := false }
    act := { sc.act with count := none, grant := false }
    tu := { sc.tu with elig := false, valid := false }
    fpo := none, pwr := r.pwr, fm := r.fm }
  c.setf Reg.CH_DS_STATUS F.CH_DS_STATUS_EPOCH (sc.fld Reg.CH_DS_STATUS F.CH_DS_STATUS_EPOCH)

/-- The target takes over the image, beside what belongs to its own instance (R541), and, where the host supplied the
configuration, that (R540). (DEDUCED, log entry 91) -/
def Chan.importFull (tgt i : Chan) (hostCfg : Bool) : Chan :=
  let c : Chan := { i with
    regs := mergeTables chReset ownReg tgt.regs i.regs
    cnts := mergeTables zeroCnt ownCnt tgt.cnts i.cnts
    latch := tgt.latch, stg := tgt.stg, stream := tgt.stream, fpo := tgt.fpo, cpReq := tgt.cpReq, drillQ := [], pwr := tgt.pwr, fm := tgt.fm }
  let c := if hostCfg then c.applyConfig (tgt.config i) else c
  let c := c.setf Reg.CH_DS_STATUS F.CH_DS_STATUS_EPOCH (i.fld Reg.CH_DS_STATUS F.CH_DS_STATUS_EPOCH)
  (c.setf Reg.CH_GR_STATUS F.CH_GR_STATUS_MODE GrMode.bitmap).put Reg.CH_GR_GLEAN 0

/-- The lines of the target that the import has made watched are watched from then on (R592). -/
def Cx.watchLines (cx : Cx) (was : Cx) : Cx :=
  (List.range 36).foldl (fun cx k => cx.watchChange k (was.lineWatched k)) cx

/-- The CONTEXT segment leaves out the free ring and the cell table (R539). -/
def ctxExported (a : Nat) : Bool :=
  !(decide (0x148000 ≤ a) && decide (a < 0x14E000)) && !(decide (cellAddr 0 ≤ a) && decide (a < cellAddr numCells))

/-- The allocated cells, ascending. -/
def Cx.usedCells (cx : Cx) : List Nat := (List.range numCells).filter fun i => (cx.cell i).alloc

/-- A header of R539: kind, source, FREEZE_TICK, SEED, the register image, CELLS and the CRCs of the segments. -/
def imageHeader (version kind c : Nat) (freeze : DWord) (seed : Nat) (valid : Bool) (image : List Byte) (cells : Nat)
    (crcs : Nat × Nat × Nat) : List Byte :=
  leBytes 4 0x4F485453 ++ leBytes 2 version ++ [BitVec.ofNat 8 kind, BitVec.ofNat 8 c] ++ leBytes 8 freeze.toNat ++
    leBytes 8 (seed % 2 ^ 51 + b2n valid * 2 ^ 63) ++ leBytes 4 image.length ++ leBytes 4 (crc32c image) ++
    leBytes 4 (cells % 2 ^ 14) ++ leBytes 4 crcs.1 ++ leBytes 4 crcs.2.1 ++ leBytes 4 crcs.2.2

/-- What TRANSFER writes to the host buffer of a live or Halted source: CONTEXT space, the allocated cells, the register
image, and the header (R539, R541). (DEDUCED, log entries 92 and 97) -/
def Cx.fullSegs (src : Cx) (ho : Ho) (full : Chan) : List ImageSeg :=
  let image := regImageOf full.regs
  let used := src.usedCells
  let tree := match ho.image.bind fun i => i.tree with
    | some t => Sparse.bytes t 0 0x200000
    | none => []
  let ctx := ((src.ctxBytes 0 0x180000).zipIdx.filter fun e => ctxExported e.2).map Prod.fst
  let cells := used.flatMap fun i => Sparse.bytes src.ch.buf (256 * i) 256
  [ho.seg 0x210000 (.space 0x180000 (full.ctxm.filter fun e => ctxExported e.1)),
   ho.seg 0x390000 (.space 0x300000 full.buf), ho.seg 0x1000 (.bytes image),
   ho.seg 0 (.bytes (imageHeader src.hl.runImage.regCur 1 ho.src ho.freeze ho.sfc ho.seed.isSome image used.length
     (crc32c tree, crc32c ctx, crc32c cells)))]

/-- What TRANSFER writes of a wedged source: the header of an IDENTITY image, whose register image the host supplied; what
R539 gives no value for there is free. (DEDUCED, log entry 97) -/
def Headland.identitySeg (h : Headland) (ho : Ho) : ImageSeg :=
  let fld (o : Nat) : List Byte := leBytes 4 (Config.headerField o).toNat
  ho.seg 0 (.bytes (leBytes 4 0x4F485453 ++ leBytes 2 h.runImage.regCur ++ [3, BitVec.ofNat 8 ho.src] ++
    leBytes 8 ho.freeze.toNat ++ leBytes 8 (ho.sfc % 2 ^ 51) ++ fld 0x18 ++ fld 0x1C ++
    leBytes 4 ((Config.headerField 0x20).toNat % 2 ^ 14) ++ fld 0x24 ++ fld 0x28 ++ fld 0x2C))

/-- The state of a live or Halted source passes through the host buffer into the target (R31, R541). -/
def State.hoCarry (s : State) (ho : Ho) : State :=
  let src := s.srcView ho
  let full := src.exportFull ho.seed
  let ho := { ho with image := ho.image.map fun i => { i with full := some full } }
  let s := s.mapHl fun h =>
    h.hoWrite ho (src.fullSegs ho full) (0x180000 - 0x6000 - 4 * numCells + 256 * src.usedCells.length)
  s.onTgt ho fun t => (({ t with ch := t.ch.importFull full ho.hostCfg } : Cx).clearLost numCells).watchLines t

/-- HANDOVER_TRANSFER: `crcOk`, every import matches its exported CRC. It begins when what the source had begun has
ended. (DEDUCED, log entries 91 and 92) -/
def State.hoTransfer (s : State) (ho : Ho) (halts : Nat) (crcOk : Bool) : State :=
  let cx := s.srcView ho
  if cx.ch.rings.txq.any (fun e => e.2.storing.isSome) ∧ ho.kind = 0 ∨ (!cx.ch.ds.cipherQ.isEmpty && ho.kind == 0) then s
  else
    let s := s.hoHalts ho 6 halts
    match s.hl.ho with
    | none => s
    | some ho =>
      let ho := { ho with slow := ho.slow || s.hoTight }
      if crcOk = false ∧ ho.kind ≠ 2 then s.hoAbort ho HoResult.abortCheck
      else
        let s := if ho.kind = 1 then s.onSrc ho Cx.dropSent else s
        let s := if ho.kind = 2 then s.mapHl fun h => h.hoWrite ho [h.identitySeg ho] 0 else s.hoCarry ho
        s.mapHl fun h => h.hoNext ho

def execHandoverTransfer (halts : Nat) (crcOk : Bool) (s : State) : Out :=
  s.hoIn HoPhase.transfer fun ho s => s.hoTransfer ho halts crcOk

/-! ### SWITCH (R542) -/

/-- The identity record and the key store move; the source's record is EMPTY. (DEDUCED, log entry 96) -/
def Headland.moveIdentity (h : Headland) (src tgt : Nat) : Headland :=
  let ident := h.ident.filterMap fun e =>
    if e.1 / recSize = tgt then none else some e
  let moved := ident.foldl (fun (m : Sparse Byte) e =>
    if e.1 / recSize = src then Sparse.set zeroByte m (e.1 - recSize * src + recSize * tgt) e.2
    else Sparse.set zeroByte m e.1 e.2) []
  let keys := (h.keyStore.filter fun e => e.1 / 512 != tgt).foldl (fun (m : Sparse (Option KeySlot)) e =>
    if e.1 / 512 = src then Sparse.set (fun _ => none) m (e.1 - 512 * src + 512 * tgt) e.2
    else Sparse.set (fun _ => none) m e.1 e.2) []
  { h with ident := moved, keyStore := keys }

/-- TARGET of a Headland Drill entry with the source replaced. -/
def DrillEntry.retarget (e : DrillEntry) (src tgt : Nat) : DrillEntry :=
  if e.en = false then e
  else if e.action = DrAct.gateOpen ∨ e.action = DrAct.gateClose then
    (if nbits e.target 20 16 = src then { e with target := e.target - src * 2 ^ 16 + tgt * 2 ^ 16 } else e)
  else if e.action = DrAct.sheafCommit ∨ e.action = DrAct.wake ∨ e.action = DrAct.stop then
    (if nbit e.target src then
      { e with target := (e.target - 2 ^ src) ||| 2 ^ tgt }
    else e)
  else e

def Headland.retargetDrill (h : Headland) (src tgt : Nat) : Headland :=
  { h with drill := h.drill.map fun e => (e.1, e.2.retarget src tgt) }

/-- The routing entries of the source's events are copied; PENDING is not routing. -/
def Headland.copyRouting (h : Headland) (src tgt : Nat) : Headland :=
  (List.range 24).foldl (fun h k =>
    let w := h.get (Reg.HL_EVSRC (24 * src + k))
    let old := h.flg (Reg.HL_EVSRC (24 * tgt + k)) F.HL_EVSRC_PENDING
    h.put (Reg.HL_EVSRC (24 * tgt + k)) (setF w F.HL_EVSRC_PENDING (b2n old))) h

/-- The window in µs, rounded up and saturated. -/
def windowUs (from_ to_ : DWord) : Nat := min 65535 (((to_ - from_).toNat + 999) / 1000)

/-- The lane passes from the source to the target. -/
def State.moveLane (s : State) (ho : Ho) : State :=
  let w := (s.srcView ho).get Reg.CH_LANE
  (s.onSrc ho fun cx => (cx.put Reg.CH_LANE 0).setPwr { cx.ch.pwr with lane := cx.ch.pwr.lane.map fun _ => (0, false) }).onTgt
    ho fun cx => cx.put Reg.CH_LANE w

/-- The source's record is about to leave it: the registers that reflect it are as for an EMPTY record (R163). An ID that
was being ranged does not go along: the target begins activation anew (R162, R545). -/
def Cx.giveIdentity (cx : Cx) : Cx :=
  let cx := cx.dropStaleId
  let cx := (cx.put Reg.CH_ACT_EQD 0).put Reg.CH_ACT_STATUS (cx.get Reg.CH_ACT_STATUS &&& 0xFC00FFCF)
  (List.range 256).foldl (fun cx n => (cx.setf (Reg.CH_US_SLOT n) F.CH_US_SLOT_ALLOC_ID 0).setf (Reg.CH_US_SLOT n)
    F.CH_US_SLOT_VALID 0) cx

/-- The rest of SWITCH. `tight`: a condition of R535 has not held by then. -/
def State.hoSwitched (s : State) (ho : Ho) (tight : Bool) : State :=
  let s := s.onSrc ho Cx.giveIdentity
  let s := s.mapHl fun h => ((h.moveIdentity ho.src ho.tgt).retargetDrill ho.src ho.tgt).copyRouting ho.src ho.tgt
  let s := s.onTgt ho fun cx =>
    (cx.setf Reg.CH_MODE F.CH_MODE_FALLOW 0).setf Reg.CH_PWR_STATUS F.CH_PWR_STATUS_PERMIT (b2n (nbit (cx.idLe 0x54 4) 1))
  let s := s.onSrc ho fun cx => cx.setf Reg.CH_PWR_STATUS F.CH_PWR_STATUS_PERMIT 0
  let ctl := s.hl.get Reg.HL_STU_CTL
  let s := if getF ctl F.HL_STU_CTL_CHAN = ho.src then s.stuSourceChange (setF ctl F.HL_STU_CTL_CHAN ho.tgt) else s
  let s := s.onSrc ho fun cx =>
    if cx.mode = ModeCode.handover then (cx.setMode ModeCode.disabled).setAct Act.off else cx
  let slow := ho.slow || tight || decide (1000000 < (s.hl.stu.tick - ho.freeze).toNat)
  s.mapHl fun h =>
    let h := (h.fallowEvent ho.tgt FallowReason.used).put Reg.HL_FM_HO_WINDOW
      (BitVec.ofNat 32 (windowUs ho.freeze h.stu.tick))
    (h.setf Reg.HL_FM_STATUS F.HL_FM_STATUS_SLOW (b2n slow)).hoNext ho

/-! ### RESUME (R543, R545) -/

/-- The slots for which the key store holds a key of the channel (R561). -/
def Cx.storedKeys (cx : Cx) : List Nat :=
  cx.hl.keyStore.filterMap fun e => if e.1 / 512 = cx.id.val ∧ e.2.isSome then some (e.1 % 512) else none

/-- The target's free store is gleaned, its epoch increments, what was held is delivered, its time unit resumes
and it begins activation. Every key of the store is delivered again before its first envelope (R563). -/
def Cx.resume (cx : Cx) (arms : List (Nat × DWord)) (gates : List (Nat × Bool)) : Cx :=
  let cx := cx.bumpEpoch.gleanStart
  let cx : Cx := { cx with ch := { cx.ch with armHeld := arms, pwr := { cx.ch.pwr with gates := gates } } }
  let cx := cx.deliverHeld
  let cx := if cx.isStuSource = false ∧ cx.tuServo.st = ServoState.locked then cx.putTuServo cx.tuServo.toHold else cx
  let cx := cx.deliverKeys cx.storedKeys
  let settle (cx : Cx) : Cx := cx.onHl fun h => h.hoSettle HoResult.doneAcquire
  if cx.recState = Rec.empty then settle (cx.setMode ModeCode.disabled)
  else if cx.recState ≠ Rec.stopped ∧ cx.fastOk then cx.fastStart.triggerAll
  else settle cx.enterAcquire

/-- The handover ends when the target has left Handover, with what RESUME came to then (R545). A target that left it
otherwise is not in service. (DEDUCED, log entry 93) -/
def State.hoDone (s : State) (ho : Ho) : State :=
  if (s.tgtView ho).mode = ModeCode.handover then s
  else s.mapHl fun h =>
    ((h.setf Reg.HL_FM_STATUS F.HL_FM_STATUS_FALLOW_VALID 0).inc Cnt.HL_CNT_HO_DONE).hoEnd ho
      (ho.result.getD HoResult.doneAcquire)

/-- HANDOVER_SWITCH, after which RESUME begins. -/
def State.hoSwitch (s : State) (ho : Ho) : State :=
  let s := (s.moveLane ho).hoSwitched ho s.hoTight
  let src := (s.srcView ho).ch
  let s := s.onSrc ho fun cx => { cx with ch := { cx.ch with armHeld := [], pwr := { cx.ch.pwr with gates := [] } } }
  s.onTgt ho fun cx => cx.resume src.armHeld src.pwr.gates

def execHandoverSwitch (s : State) : Out := s.hoIn HoPhase.switch_ fun ho s => s.hoSwitch ho

/-- HANDOVER_RESUME_DONE. -/
def execHandoverResumeDone (s : State) : Out := s.hoIn HoPhase.resume fun ho s => s.hoDone ho

/-! ### Commands and resets during a handover -/

/-- HANDOVER_ABORT (R547). -/
def execHandoverAbort (m : CmdHead) (s : State) : Out :=
  s.devCommand m 0x0202 true false fun s =>
    match s.hl.ho with
    | some ho =>
      if s.hl.hoPhase < HoPhase.resume then (s.hoAbort ho HoResult.abortHost, MbStatus.ok, [])
      else (s, MbStatus.badState, [])
    | none => (s, MbStatus.badState, [])

/-- A channel reset of the source or the target begins (R547): it aborts a handover before SWITCH, and ends one
whose target is in RESUME. -/
def State.hoReset (s : State) (c : ChanId) : State :=
  match s.hl.ho with
  | none => s
  | some ho =>
    if (c.val = ho.src ∨ c.val = ho.tgt) ∧ s.hl.hoPhase < HoPhase.resume then s.hoAbort ho HoResult.abortReset
    else if c.val = ho.tgt then
      s.mapHl fun h =>
        ((h.setf Reg.HL_FM_STATUS F.HL_FM_STATUS_FALLOW_VALID 0).inc Cnt.HL_CNT_HO_DONE).hoEnd ho HoResult.doneAcquire
    else s

/-- The header of a CONFIG image (R539): what R539 gives for a FULL image only is free. (DEDUCED, log entry 97) -/
def configHeader (version c : Nat) (image : List Byte) : List Byte :=
  imageHeader version 2 c (Config.headerField 0x08) ((Config.headerField 0x10).toNat % 2 ^ 51) false image
    (Config.headerField 0x20).toNat
    ((Config.headerField 0x24).toNat, (Config.headerField 0x28).toNat, (Config.headerField 0x2C).toNat)

/-- CONFIG_EXPORT (R531, R532, R539). (DEDUCED, log entry 97) -/
def execConfigExport (m : CmdHead) (buffer : DWord) (s : State) : Out :=
  s.chanCommand m 0x0203 false fun c s =>
    let cx := s.view c
    if s.hl.fmBusy then (s, MbStatus.busy)
    else if cx.modeIn [ModeCode.acquire, ModeCode.service, ModeCode.disabled] = false then (s, MbStatus.badState)
    else if buffer.toNat % 4096 ≠ 0 then (s, MbStatus.badBuffer)
    else
      let image := (Config.regImage cx.ch.regs).take 61440
      (s.mapHl fun h => (h.hostWrite .image buffer.toNat (configHeader h.runImage.regCur c image)).hostWrite .image
        (buffer.toNat + 4096) image, MbStatus.ok)

end Sys2Proof.Machine
end

