-- ==== Sys2Proof/Machine/Fallow.lean ====
section
/-!
DEFINITION. Fallow capacity (R523 to R530, R549 to R551): wear, bank migration, wedged channels, and the
designation and test of the fallow channel.
-/

namespace Sys2Proof.Machine

open Sys2Proof

/-! ### Migration (R336, R337, R528 to R530) -/

/-- Number of the last bank of a store, as BANK_MIGRATE numbers them, plus one. -/
def storeBanks (store : Nat) : Nat := if store = 0 then 24 else if store = 1 then 8 else if store = 2 then 12 else 0

/-- CH_FB_TREE or CH_FB_CTX. -/
def fbReg (store : Nat) : Nat := if store = 1 then Reg.CH_FB_TREE else Reg.CH_FB_CTX

/-- The fallow bank of the tree or context store is free. -/
def Cx.storeFree (cx : Cx) (store : Nat) : Bool :=
  !cx.flg (fbReg store) F.CH_FB_TREE_VALID && !cx.flg (fbReg store) F.CH_FB_TREE_RETIRED

/-- Start a migration; answers the status of R532. (DEDUCED, log entry 100) -/
def Cx.bankMigrate (cx : Cx) (store bank : Nat) : Cx × Nat :=
  let named : Bool := match cx.hl.ho with
    | some ho => ho.src == cx.id.val || ho.tgt == cx.id.val
    | none => false
  if storeBanks store ≤ bank then (cx, MbStatus.badArg)
  else if named then (cx, MbStatus.busy)
  else if cx.migrating ∨ cx.modeIn [ModeCode.acquire, ModeCode.service] = false then (cx, MbStatus.badState)
  else if store = 0 then
    match cx.freeFb with
    | some f =>
      let cx : Cx := { cx with ch := { cx.ch with gr := { cx.ch.gr with copied := [], moved := [] } } }
      (cx.put Reg.CH_GR_MIGRATE (BitVec.ofNat 32 (bank + f * 2 ^ 5 + 2 ^ 6 + 2 ^ 31)), MbStatus.ok)
    | none => (cx, MbStatus.noSpare)
  else if cx.storeFree store then
    (cx.put Reg.CH_FB_MIGRATE (BitVec.ofNat 32 (bank + (store - 1) * 2 ^ 4 + 2 ^ 8 + 2 ^ 31)), MbStatus.ok)
  else (cx, MbStatus.noSpare)

/-- BANK_MIGRATE. -/
def execBankMigrate (m : CmdHead) (store : Fin 4) (bank : Fin 32) (s : State) : Out :=
  s.chanCommand m 0x0206 true fun c s => chanRun (fun cx => cx.bankMigrate store bank) c s

/-- Fallow buffer bank `f` serves bank `b`; a fallow bank that served it is retired. -/
def Cx.fbTake (cx : Cx) (f b : Nat) : Cx :=
  let old := cx.bufBank b
  let cx := if 24 ≤ old then cx.fbRetire (old - 24) else cx
  cx.fbServe f b

/-- The tree or context fallow bank serves a bank. -/
def Cx.storeServe (cx : Cx) (store b : Nat) : Cx :=
  (cx.setf (fbReg store) F.CH_FB_TREE_BANK b).setf (fbReg store) F.CH_FB_TREE_VALID 1

/-- The copier has copied a cell of the bank under migration: one that is allocated, or, where its STATE was written
since the migration began, one that it found allocated (R336). (DESIGN CHOICE, log entry 141) -/
def Cx.cellCopied (cx : Cx) (i : Nat) : Bool :=
  if cx.ch.gr.moved.contains i then Config.cellCopied cx.id.val i cx.hl.stu.tick else (cx.cell i).alloc

/-- The bytes that the fallow bank holds of bank `b` at SWITCH: those of a cell that was copied, and of another only what
clients have written since the migration began, over the zeros of a bank that has served nothing (R336). -/
def Cx.fallowBytes (cx : Cx) (b : Nat) : Cx :=
  let ours (a : Nat) : Bool := a / 131072 == b && !cx.cellCopied (a / 256)
  let kept := cx.ch.buf.filter fun e => !ours e.1
  let buf := (cx.ch.gr.copied.filter fun e => ours e.1).foldl (fun m e => Sparse.set zeroByte m e.1 e.2) kept
  { cx with ch := { cx.ch with buf := buf, gr := { cx.ch.gr with copied := [], moved := [] } } }

/-- SWITCH of a Granary migration to fallow bank `f`. -/
def Cx.granSwitch (cx : Cx) (b f : Nat) : Cx :=
  let cx := ((cx.fallowBytes b).fbTake f b).setf Reg.CH_GR_MIGRATE F.CH_GR_MIGRATE_BUSY 0
  (cx.setf Reg.CH_GR_MIGRATE F.CH_GR_MIGRATE_PHASE 2).bankRetired 0 b f 0

/-- SWITCH of a tree or context migration. -/
def Cx.storeSwitch (cx : Cx) (store b : Nat) : Cx :=
  let cx := (cx.storeServe store b).setf Reg.CH_FB_MIGRATE F.CH_FB_MIGRATE_BUSY 0
  (cx.setf Reg.CH_FB_MIGRATE F.CH_FB_MIGRATE_PHASE 2).bankRetired store b 0 0

/-- A migration whose fallow bank has been retired ends without SWITCH (R524). (DEDUCED, log entry 142) -/
def Cx.migrationDropped (cx : Cx) (gran : Bool) : Cx :=
  if gran then (cx.setf Reg.CH_GR_MIGRATE F.CH_GR_MIGRATE_BUSY 0).setf Reg.CH_GR_MIGRATE F.CH_GR_MIGRATE_PHASE 0
  else (cx.setf Reg.CH_FB_MIGRATE F.CH_FB_MIGRATE_BUSY 0).setf Reg.CH_FB_MIGRATE F.CH_FB_MIGRATE_PHASE 0

/-- MIGRATION_SWITCH: the copier has finished. In Stop it is paused (R529). (DEDUCED, log entry 100) -/
def Cx.migrationSwitch (cx : Cx) (gran : Bool) : Cx :=
  let count (cx : Cx) : Cx := cx.onHl fun h => h.inc Cnt.HL_CNT_FM_MIGRATIONS
  if cx.ch.coreStopped then cx
  else if gran then
    let f := cx.fld Reg.CH_GR_MIGRATE F.CH_GR_MIGRATE_TARGET
    if cx.ch.granMoves = false then cx
    else if cx.fbRetired f then cx.migrationDropped true
    else count (cx.granSwitch (cx.fld Reg.CH_GR_MIGRATE F.CH_GR_MIGRATE_BANK) f)
  else
    let store := 1 + cx.fld Reg.CH_FB_MIGRATE F.CH_FB_MIGRATE_STORE
    if cx.flg Reg.CH_FB_MIGRATE F.CH_FB_MIGRATE_BUSY = false then cx
    else if cx.flg (fbReg store) F.CH_FB_TREE_RETIRED then cx.migrationDropped false
    else count (cx.storeSwitch store (cx.fld Reg.CH_FB_MIGRATE F.CH_FB_MIGRATE_BANK))

/-- The copier reads a row of the bank: a correctable error is counted, and an uncorrectable one is counted and leaves the
row as uncorrectable in the bank that serves it then (R335, R336, R528). A free cell is not copied.
(DEDUCED, log entry 100) -/
def Cx.copyRow (gran : Bool) (cx : Cx) (ecc : EccFault) : Cx :=
  let bad (cx : Cx) : Cx := { cx with ch := { cx.ch with badRows := cx.ch.badRows ++ [ecc] } }
  let of_ (store bank : Nat) : Bool :=
    if gran then cx.ch.granMoves && store == 0 && bank == cx.fld Reg.CH_GR_MIGRATE F.CH_GR_MIGRATE_BANK
    else cx.flg Reg.CH_FB_MIGRATE F.CH_FB_MIGRATE_BUSY && store == 1 + cx.fld Reg.CH_FB_MIGRATE F.CH_FB_MIGRATE_STORE &&
      bank == cx.fld Reg.CH_FB_MIGRATE F.CH_FB_MIGRATE_BANK
  match ecc with
  | .bufCe i => if of_ 0 (i.val / 512) && cx.cellCopied i.val then cx.countCE (Reg.CH_GR_ERR (cx.bufBank (i.val / 512))) else cx
  | .bufUe i =>
    if of_ 0 (i.val / 512) && cx.cellCopied i.val then bad (cx.countUE (Reg.CH_GR_ERR (cx.bufBank (i.val / 512)))) else cx
  | .treeCe n => if of_ 1 (n.val % 8) then (cx.eccOne ecc [n.val] []).1 else cx
  | .treeUe n => if of_ 1 (n.val % 8) then bad (cx.countUE (cx.treeErrReg (n.val % 8))) else cx
  | .ctxCe a => if of_ 2 (ctxBank a.val) then (cx.eccOne ecc [] [(a.val, 1)]).1 else cx
  | .ctxUe a => if of_ 2 (ctxBank a.val) then bad (cx.countUE (cx.ctxErrReg (ctxBank a.val))) else cx
  | _ => cx

/-- The copier reads the bank's rows, in which the ECC finds these errors; in Stop it is paused (R529).
(DEDUCED, log entry 100) -/
def Cx.copyRows (cx : Cx) (gran : Bool) (eccs : List EccFault) : Cx :=
  if cx.ch.coreStopped then cx else eccs.foldl (Cx.copyRow gran) cx

/-- MIGRATION_SWITCH: the copier has read its last row; `eccs` is what it found. -/
def execMigrationSwitch (c : CopyReads) (gran : Bool) (s : State) : Out :=
  s.onChan c.chan fun cx => (cx.copyRows gran c.eccs).migrationSwitch gran

/-! ### Wear (R525, R526) -/

/-- A physical bank of a channel: its store, its number, and the register that counts its errors. -/
structure PhysBank where
  store : Nat
  phys  : Nat
  err   : Nat
  deriving DecidableEq, Repr

def physBanks : List PhysBank :=
  ((List.range 26).map fun p => ⟨0, p, Reg.CH_GR_ERR p⟩) ++
    ((List.range 9).map fun p => ⟨1, p, Reg.CH_FB_ERR p⟩) ++
    ((List.range 13).map fun p => ⟨2, p, Reg.CH_FB_ERR (9 + p)⟩)

/-- The number of the fallow bank of a tree or context store. -/
def fallowBank (store : Nat) : Nat := if store = 1 then 8 else 12

/-- What a physical bank does: it serves an active bank, it is a free fallow bank, or it is retired. -/
inductive BankUse where
  | serves (bank : Nat)
  | spare
  | retired
  deriving DecidableEq, Repr

def Cx.bankUse (cx : Cx) (b : PhysBank) : BankUse :=
  if b.store = 0 then
    match cx.served b.phys with
    | some i => .serves i
    | none => if 24 ≤ b.phys ∧ cx.fbRetired (b.phys - 24) = false then .spare else .retired
  else
    let r := fbReg b.store
    let valid := cx.flg r F.CH_FB_TREE_VALID
    let bank := cx.fld r F.CH_FB_TREE_BANK
    if b.phys = fallowBank b.store then
      (if valid then .serves bank else if cx.flg r F.CH_FB_TREE_RETIRED then .retired else .spare)
    else if valid && bank == b.phys then .retired else .serves b.phys

/-- A fallow bank that serves no index is retired. -/
def Cx.retireSpare (cx : Cx) (b : PhysBank) : Cx :=
  if b.store = 0 then (cx.fbRetire (b.phys - 24)).bankRetired 0 b.phys (b.phys - 24) 2
  else (cx.setf (fbReg b.store) F.CH_FB_TREE_RETIRED 1).bankRetired b.store b.phys 0 2

/-- Sample one bank in second `sec`. (DEDUCED, log entry 101) -/
def Cx.sampleBank (sec : Nat) (cx : Cx) (b : PhysBank) : Cx :=
  let key := 32 * b.store + b.phys
  let w := cx.hl.wearWindow
  let ce := cx.fld b.err F.CH_GR_ERR_CE
  let ue := cx.fld b.err F.CH_GR_ERR_UE
  let old := Sparse.get (fun _ => []) cx.ch.fm.wear key
  let inWin := old.filter fun x => decide (sec ≤ x.1 + w)
  let base := match inWin.getLast?, old.head? with
    | some x, _ => x.2.1
    | none, some x => x.2.1
    | none, none => 0
  let rise := ce - base
  let fm := { cx.ch.fm with wear := Sparse.set (fun _ => []) cx.ch.fm.wear key ((sec, ce, ue) :: inWin) }
  let cx : Cx := { cx with ch := { cx.ch with fm := fm } }
  let use := cx.bankUse b
  let limit := cx.hl.fld Reg.HL_FM_WEAR_CFG F.HL_FM_WEAR_CFG_CE_LIMIT
  if use = .retired ∨ (rise < limit ∧ ue = 0) then cx
  else
    let number := match use with
      | .serves i => i
      | _ => b.phys
    let last := Sparse.get (fun _ => none) cx.ch.fm.worn key
    let due : Bool := match last with
      | some t => decide (t + w ≤ sec)
      | none => true
    let cx := if due then
        let fm := { cx.ch.fm with worn := Sparse.set (fun _ => none) cx.ch.fm.worn key (some sec) }
        ({ cx with ch := { cx.ch with fm := fm } } : Cx).raise Ev.eccWear
          (b.store + number * 4 + b2n (ue != 0) * 2 ^ 7 + min 65535 rise * 2 ^ 16)
      else cx
    match use with
    | .serves i => if cx.hl.flg Reg.HL_FM_WEAR_CFG F.HL_FM_WEAR_CFG_AUTO then (cx.bankMigrate b.store i).1 else cx
    | _ => cx.retireSpare b

/-- WEAR_SAMPLE of one channel; its registers can be read while its clock runs. (DEDUCED, log entry 101) -/
def Cx.wearSample (cx : Cx) : Cx :=
  if cx.ch.coreStopped ∨ cx.hl.resetRuns cx.id.val then cx
  else physBanks.foldl (Cx.sampleBank (cx.hl.stu.tick.toNat / 1000000000)) cx

/-- WEAR_SAMPLE. -/
def execWearSample (s : State) : Out :=
  s.alive fun s => if s.hl.fwUp then s.overChans Cx.wearSample (List.finRange 17) else s

/-! ### Designation and test (R550, R551) -/

def execFallowDesignate (m : CmdHead) (s : State) : Out :=
  s.chanCommand m 0x0204 true fun c s =>
    chanRun (fun cx =>
      if cx.hl.fallowValid ∨ cx.mode ≠ ModeCode.disabled ∨ cx.recState ≠ Rec.empty ∨ cx.ch.fm.clean = false then
        (cx, MbStatus.badState)
      else
        let cx := cx.setf Reg.CH_MODE F.CH_MODE_FALLOW 1
        (cx.onHl fun h =>
          (((h.setf Reg.HL_FM_STATUS F.HL_FM_STATUS_FALLOW_CH c.val).setf Reg.HL_FM_STATUS
            F.HL_FM_STATUS_FALLOW_VALID 1).setf Reg.HL_FM_STATUS F.HL_FM_STATUS_TESTED 0).fallowEvent c.val
            FallowReason.designated, MbStatus.ok)) c s

/-- FALLOW_TEST completes at acceptance and reports its end by FALLOW (R555). (DEDUCED, log entry 99) -/
def execFallowTest (m : CmdHead) (s : State) : Out :=
  s.devCommand m 0x0205 true false fun s =>
    if s.hl.fmBusy then (s, MbStatus.busy, [])
    else if s.hl.fallowValid = false ∨ (s.view (chanOf s.hl.fallowCh)).mode ≠ ModeCode.disabled then
      (s, MbStatus.badState, [])
    else (s.mapHl fun h => { h with testing := some m }, MbStatus.ok, [])

/-- One failing bank: a serving bank is replaced by a free fallow bank, as under R338, whose step 3 puts the free store of
a buffer bank into BITMAP mode. Answers whether the test can still pass. -/
def Cx.testBank (cx : Cx) (b : PhysBank) : Cx × Bool :=
  match cx.bankUse b with
  | .retired => (cx, true)
  | .spare => (cx, false)
  | .serves i =>
    if b.store = 0 then
      match cx.freeFb with
      | some f => ((cx.fbTake f i).toBitmap.bankRetired 0 i f 1, true)
      | none => (cx, false)
    else if cx.storeFree b.store then ((cx.storeServe b.store i).bankRetired b.store i 0 1, true)
    else (cx, false)

/-- DEDUCED, log entry 99. -/
def Cx.testBanks (cx : Cx) : List PhysBank → Cx × Bool
  | [] => (cx, true)
  | b :: l =>
    let r := cx.testBank b
    let t := r.1.testBanks l
    (t.1, r.2 && t.2)

/-- Every bank is left zeroed: no context is valid and pins a slot, and no fragment entry is valid (R303, R246). -/
def Chan.zeroed (c : Chan) : Chan :=
  let c : Chan := { c with tree := [], ctxm := [], buf := [], stg := [], badRows := [], ds := { c.ds with resume := [] } }
  (List.range 4).foldl (fun c g => (c.setf (Reg.CH_SHEAF_PINS g) F.CH_SHEAF_PINS_COUNT 0).setf (Reg.CH_SHEAF_FRAGS g)
    F.CH_SHEAF_FRAGS_COUNT 0) (c.setf Reg.CH_FRAG_STATUS F.CH_FRAG_STATUS_VALID_COUNT 0)

/-- FALLOW_TEST_DONE: the banks in which the march found a fault, by place in `physBanks`, and a fault in the staging
buffer, which has no spare. (DEDUCED, log entry 99) -/
def State.fallowTestDone (s : State) (bad : List (Fin 48)) (staging : Bool) : State :=
  match s.hl.testing with
  | none => s
  | some _ =>
    let c := chanOf s.hl.fallowCh
    if s.hl.resetRuns c then s
    else s.modChan c fun cx =>
      let cx : Cx := { cx with ch := cx.ch.zeroed }
      let r := cx.testBanks (bad.filterMap fun i => physBanks[i.val]?)
      let ok := r.2 && !staging
      r.1.onHl fun h =>
        ({ h.setf Reg.HL_FM_STATUS F.HL_FM_STATUS_TESTED (b2n ok) with testing := none } : Headland).fallowEvent c.val
          (if ok then FallowReason.testPass else FallowReason.testFail)

def execFallowTestDone (bad : List (Fin 48)) (staging : Bool) (s : State) : Out :=
  s.alive fun s => s.fallowTestDone bad staging

/-! ### Wedged channels (R70, R549) -/

/-- A channel is marked wedged. -/
def Headland.markWedged (h : Headland) (c beat : Nat) : Headland :=
  if h.wedgedBit c then h
  else
    let h := (h.setf Reg.HL_FM_WEDGED ⟨c, 1⟩ 1).inc Cnt.HL_CNT_FM_WEDGES
    (h.raise Ev.wedge c).logDue LogKind.wedge c [c, beat]

end Sys2Proof.Machine
end

