-- ==== Sys2Proof/Machine/Manage.lean ====
section
/-!
DEFINITION. The rest of the management core: frames injected by the host (R560), keys (R561 to R563), sensors (R564,
R565) and firmware images (R566 to R572, R648).
-/

namespace Sys2Proof.Machine

open Sys2Proof

/-! ### MGMT_SEND (R560) -/

/-- The frame is stored as client MGMT and enters the queue without classification. (DEDUCED, log entry 102) -/
def Cx.mgmtSend (cx : Cx) (q : Nat) (data : List Byte) : Cx × Nat :=
  if cx.mode ≠ ModeCode.service ∨ cx.qEn true q = false then (cx, MbStatus.badState)
  else
    let bs := padFcs data
    match cx.storeFrame Owner.mgmt false bs with
    | (none, cx) => (cx, MbStatus.busy)
    | (some cell, cx) =>
      let cx := cx.handoffChain Owner.mgmt 1 cell
      let f : Frame :=
        { cell := cell, len := bs.length, up := true, hasFcs := true, ts := cx.time8,
          port := cx.fld (Reg.CH_TXQ_MAP q) F.CH_TXQ_MAP_PORT, ctx := 0, rule := 0, mark := 0, ftype := 0 }
      (cx.idleRestart.txEnqueue q
        { frame := f, ovrPort := none, src := none, queue := q, launch := none, sent := 0, tsent := none, key := 0,
          keySet := 0, bad := false, cellErr := false }, MbStatus.ok)

/-- MGMT_SEND: `len` bytes that host memory holds at the address; those beyond `data` are free. -/
def execMgmtSend (m : CmdHead) (len : BitVec 14) (q : Fin 256) (data : List Byte) (s : State) : Out :=
  s.chanCommand m 0x0301 true fun c s =>
    chanRun (fun cx =>
      let cx : Cx := { cx with ecc := m.ecc }
      let n := len.toNat
      if n = 0 ∨ 2044 < n then (cx, MbStatus.badArg)
      else cx.mgmtSend q ((data ++ (List.range n).map Config.freeByte).take n)) c s

/-! ### Keys (R561, R562, R604) -/

/-- Firmware sends a key item: with a key it loads the slot, without one it clears it. (DEDUCED, log entry 103) -/
def Cx.keyItem (cx : Cx) (set slot : Nat) (key : Option KeySlot) : Cx :=
  let k := keyIndex set slot
  (cx.keySend k key).onHl fun h =>
    ({ h with keyStore := Sparse.set (fun _ => none) h.keyStore (512 * cx.id.val + k) key } : Headland).notice
      Notice.key cx.id.val [set + slot * 2 ^ 8 + (if key.isSome then 1 else 2) * 2 ^ 10]

/-- A key of AES-128 uses the first 16 bytes, and the rest are zero (R604). -/
def KeySlot.of (k256 : Bool) (key : BitVec 256) : KeySlot :=
  ⟨k256, if k256 then key else BitVec.ofNat 256 (key.toNat % 2 ^ 128)⟩

/-- KEY_ITEM: `two` names slot 2; the item is a load with its K256 and key bits, or a clear.
(DEDUCED, log entry 103) -/
def execKeyItem (c : ChanId) (set : Byte) (two : Bool) (key : Option (Bool × BitVec 256)) (s : State) : Out :=
  s.onChan c fun cx =>
    if cx.hl.fwUp && !cx.ch.coreStopped && !cx.hl.outputsReset then
      cx.keyItem set.toNat (if two then 2 else 1) (key.map fun k => KeySlot.of k.1 k.2)
    else cx

/-! ### Sensors (R564, R565) -/

/-- A kind of sensor: 0 thermal, 1 voltage, 2 ageing. -/
def snsSource (kind : Nat) : Nat := Ev.thermal + kind
/-- Bit of an alarm. (DEDUCED, log entry 106) -/
def snsAlarm (kind i : Nat) : Nat × Field :=
  if kind = 0 then (Reg.HL_SNS_ALARM_T, ⟨i, 1⟩)
  else if i < 32 then ((if kind = 1 then Reg.HL_SNS_ALARM_V_LO else Reg.HL_SNS_ALARM_A_LO), ⟨i, 1⟩)
  else ((if kind = 1 then Reg.HL_SNS_ALARM_V_HI else Reg.HL_SNS_ALARM_A_HI), ⟨i - 32, 1⟩)

/-- Nominal voltage of a point in mV (R493, R565). -/
def Headland.nominal (h : Headland) (i : Nat) : Nat :=
  let point (v : Nat) : Nat := [650, 720, 800, 880].getD v 880
  if i < 34 then h.fld Reg.HL_SNS_VNOM F.HL_SNS_VNOM_CH_MV
  else if i = 34 then point (h.fld Reg.HL_DVFS_STATUS F.HL_DVFS_STATUS_HP_V)
  else if i = 35 then point (h.fld Reg.HL_DVFS_STATUS F.HL_DVFS_STATUS_MG_V)
  else h.fld Reg.HL_SNS_VNOM F.HL_SNS_VNOM_AON_MV

/-- How a reading stands: beyond its limit, and on the high side; far enough within it to clear an alarm. -/
structure Judged where
  beyond : Bool
  high   : Bool
  clear  : Bool
  deriving DecidableEq, Repr

def Headland.judge (h : Headland) (kind i : Nat) (v : BitVec 16) : Judged :=
  if kind = 0 then
    let t := signed 16 v.toNat
    let lim := signed 16 (h.fld Reg.HL_SNS_TEMP_LIM F.HL_SNS_TEMP_LIM_ALARM)
    ⟨decide (lim < t), false, decide (t ≤ lim - (h.fld Reg.HL_SNS_TEMP_LIM F.HL_SNS_TEMP_LIM_HYST : Nat))⟩
  else if kind = 1 then
    let nom : Int := h.nominal i
    let x : Int := 100 * v.toNat
    let low := decide (x < nom * (100 - (h.fld Reg.HL_SNS_VOLT_LIM F.HL_SNS_VOLT_LIM_LOW_PCT : Nat)))
    let high := decide (nom * (100 + (h.fld Reg.HL_SNS_VOLT_LIM F.HL_SNS_VOLT_LIM_HIGH_PCT : Nat)) < x)
    ⟨low || high, high, !(low || high)⟩
  else
    let above := decide (h.fld Reg.HL_SNS_AGE_LIM F.HL_SNS_AGE_LIM_ALARM < v.toNat)
    ⟨above, false, !above⟩

/-- An alarm sets or clears: its event, its log record, and the advice of R527, for the core and the line island of a
channel (R564). (DEDUCED, log entry 106) -/
def Headland.alarm (h : Headland) (kind i : Nat) (v : BitVec 16) (on high : Bool) : Headland :=
  let a := snsAlarm kind i
  let d := i + b2n on * 2 ^ 8 + b2n high * 2 ^ 9 + v.toNat * 2 ^ 16
  let h := ((h.setf a.1 a.2 (b2n on)).raise (snsSource kind) d).logDue LogKind.sensorAlarm 31 [kind, d]
  h.when (on && kind == 2 && decide (i < 34) && h.fwUp) fun h => h.fallowEvent (i % 17) FallowReason.advise

/-- One reading of one point. -/
def Headland.sense (kind : Nat) (h : Headland) (x : BitVec 16 × Nat) : Headland :=
  let v := x.1
  let i := x.2
  let key := 64 * kind + i
  let zero (_ : Nat) : Nat := 0
  let h := h.put (if kind = 0 then Reg.HL_SNS_TEMP i else if kind = 1 then Reg.HL_SNS_VOLT i else Reg.HL_SNS_AGE i)
    (BitVec.ofNat 32 v.toNat)
  let j := h.judge kind i v
  let a := snsAlarm kind i
  if h.flg a.1 a.2 then
    let n := if j.clear then Sparse.get zero h.within key + 1 else 0
    let h := { h with within := Sparse.set zero h.within key (n % 3) }
    if n = 3 then h.alarm kind i v false (Sparse.get (fun _ => false) h.vHigh key) else h
  else
    let n := if j.beyond then Sparse.get zero h.beyond key + 1 else 0
    let h := { h with beyond := Sparse.set zero h.beyond key (n % 3) }
    if n = 3 then
      ({ h with vHigh := Sparse.set (fun _ => false) h.vHigh key j.high } : Headland).alarm kind i v true j.high
    else h

/-- SENSOR_SAMPLE: the readings of all points. -/
def execSensorSample (temp : Vector (BitVec 16) 21) (volt age : Vector (BitVec 16) 38) (s : State) : Out :=
  s.onHl fun h =>
    let h := (temp.toList.zipIdx).foldl (Headland.sense 0) h
    let h := (volt.toList.zipIdx).foldl (Headland.sense 1) h
    (age.toList.zipIdx).foldl (Headland.sense 2) h

/-! ### Firmware images (R566, R567) -/

/-! States of the core (HL_FW_STATUS). -/
namespace FwState
def bootRom : Nat := 0
def noImage : Nat := 1
def restarting : Nat := 2
def trial : Nat := 3
def running : Nat := 4
end FwState

/-! Reasons (R570). -/
namespace FwReason
def ready : Nat := 1
def reverted : Nat := 2
def written : Nat := 3
def writeFail : Nat := 4
def accepted : Nat := 5
end FwReason

def Headland.fwState (h : Headland) : Nat := h.fld Reg.HL_FW_STATUS F.HL_FW_STATUS_STATE
def Headland.setFwState (h : Headland) (st : Nat) : Headland := h.setf Reg.HL_FW_STATUS F.HL_FW_STATUS_STATE st
def Headland.fwSlot (h : Headland) : Nat := h.fld Reg.HL_FW_STATUS F.HL_FW_STATUS_SLOT
def Headland.fwCounter (h : Headland) : Nat := h.fld Reg.HL_FW_STATUS F.HL_FW_STATUS_COUNTER
def Headland.setFw (h : Headland) (f : Firmware) : Headland := { h with fw := f }
/-- DEDUCED, log entry 105. -/
def Firmware.slot (f : Firmware) (n : Nat) : FwImage := if n = 0 then f.slotA else f.slotB
def Firmware.setSlot (f : Firmware) (n : Nat) (i : FwImage) : Firmware :=
  if n = 0 then { f with slotA := i } else { f with slotB := i }

/-- The header fields of the image in FW_IMAGE space are as R566 gives them. -/
def imageHeaderOk (m : Sparse Byte) : Bool :=
  let w (off n : Nat) : Nat := Sparse.le m off n
  w 0 4 == 0x4D524946 && w 4 2 == 1 && decide (1 ≤ w 12 4) && decide (w 12 4 ≤ 0x1FFE00) &&
    decide (w 0x14 1 ≤ 3) && w 0x15 3 == 0 && (Sparse.bytes m 0x18 0xE8).all (· == 0) &&
    (Sparse.bytes m 0x160 0xA0).all (· == 0)

/-- The image in FW_IMAGE space. -/
def imageOf (m : Sparse Byte) : FwImage :=
  ⟨true, false, Sparse.le m 6 2, Sparse.le m 8 4, Sparse.le m 0x10 2, Sparse.le m 0x12 2⟩

/-- FW_STAGE. (DEDUCED, log entry 104) -/
def Headland.fwStage (h : Headland) : Headland × Nat :=
  let i := imageOf h.fwImage
  let st := if imageHeaderOk h.fwImage = false then MbStatus.badImage
    else if Config.signatureOk h.fwImage = false then MbStatus.badSignature
    else if i.svn < h.fwCounter then MbStatus.rollback
    else MbStatus.ok
  if st = MbStatus.ok then (h.setFw { h.fw with staged := some i, locked := true }, st)
  else (h.setFw { h.fw with staged := none, locked := false }, st)

/-- A command of the Headland alone. -/
def hlRun (f : Headland → Headland × Nat) (s : State) : State × Nat × List Byte :=
  let r := f s.hl
  ({ s with hl := r.1 }, r.2, [])

def execFwStage (m : CmdHead) (s : State) : Out := s.devCommand m 0x0401 true true (hlRun Headland.fwStage)

/-- A slot is running or accepted, so that FW_WRITE may not write it; without an image either may be written (R568,
R571). -/
def Headland.slotHeld (h : Headland) (n : Nat) : Bool := !h.noImage && (h.fwSlot == n || h.fw.accepted == n)

/-- FW_WRITE is accepted: until its end the slot holds no valid image (R568). (DEDUCED, log entry 104) -/
def Headland.fwWrite (h : Headland) (n : Nat) : Headland × Nat :=
  if h.slotHeld n then (h, MbStatus.badState)
  else match h.fw.staged with
    | none => (h, MbStatus.notStaged)
    | some i =>
      if h.fw.writing.isSome then (h, MbStatus.busy)
      else (h.setFw { h.fw.setSlot n { h.fw.slot n with valid := false, torn := true } with writing := some (n, i) },
        MbStatus.ok)

def execFwWrite (m : CmdHead) (b : Bool) (s : State) : Out :=
  s.devCommand m 0x0402 true true (hlRun fun h => h.fwWrite (b2n b))

/-- A FIRMWARE notice. (DEDUCED, log entry 106) -/
def Headland.fwNotice (h : Headland) (reason slot version : Nat) : Headland :=
  h.notice Notice.firmware 0 [reason + slot * 2 ^ 4, version]

/-- FW_WRITE_DONE. (DEDUCED, log entry 104) -/
def Headland.fwWriteDone (h : Headland) (ok : Bool) : Headland :=
  match h.fw.writing with
  | some (n, i) =>
    let f := { h.fw with writing := none, locked := false, staged := none }
    let h := h.setFw (if ok then f.setSlot n i else f)
    if ok then h.fwNotice FwReason.written n i.version
    else (h.inc Cnt.HL_CNT_PS_ERR).fwNotice FwReason.writeFail n i.version
  | none => h

def execFwWriteDone (ok : Bool) (s : State) : Out := s.onHl fun h => h.fwWriteDone ok

/-! ### Restarts (R569, R570) -/

/-- Source 434. -/
def Headland.fwEvent (h : Headland) (reason : Nat) : Headland := h.raise Ev.firmware reason

/-- The core restarts into a slot. (DEDUCED, log entry 104) -/
def Headland.fwStart (h : Headland) (n st : Nat) : Headland :=
  let h := ((h.setFwState st).setf Reg.HL_FW_STATUS F.HL_FW_STATUS_SLOT n).put Reg.HL_FW_VERSION
    (BitVec.ofNat 32 (h.fw.slot n).version)
  h.setFw { h.fw with ready := false }

/-- The status of FW_ACTIVATE (R569). (DEDUCED, log entry 105) -/
def State.fwActivateCheck (s : State) (n : Nat) : Nat :=
  let h := s.hl
  let i := h.fw.slot n
  if h.ho.isSome ∨ h.testing.isSome ∨ h.fw.writing.isSome ∨ ((List.finRange 17).any fun c => (s.view c).migrating) then
    MbStatus.busy
  else if !h.noImage && h.fwSlot == n then MbStatus.badState
  else if i.torn then MbStatus.badSignature
  else if i.valid = false then MbStatus.badImage
  else if i.svn < h.fwCounter then MbStatus.rollback
  else MbStatus.ok

/-! ### What firmware does first after a device reset (R163, R524, R573, R648) -/

/-- One BANK_RETIRED record is applied to the channel it names. -/
def State.reloadBank (s : State) (rec : List Byte) : State :=
  let c := leNat ((rec.drop 4).take 2) / 2 ^ 11 % 32
  let d := leNat ((rec.drop 16).take 4)
  let store := nbits d 1 0
  let bank := nbits d 6 2
  let f := nbits d 7 7
  if 16 < c then s
  else s.modChan (chanOf c) fun cx =>
    if store = 0 then (if nbits d 9 8 = 2 then cx.fbRetire f else cx.fbTake f bank)
    else if nbits d 9 8 = 2 then cx.setf (fbReg store) F.CH_FB_TREE_RETIRED 1
    else cx.storeServe store bank

/-- PERMIT mirrors SLEEP_PERMIT of the record (R470). -/
def Cx.mirrorPermit (cx : Cx) : Cx := cx.setf Reg.CH_PWR_STATUS F.CH_PWR_STATUS_PERMIT (b2n (nbit (cx.idLe 0x54 4) 1))

/-- The identity record is reloaded: REGISTERED is lowered to SERIAL as R165 lowers it; a record that was ranging keeps
neither its terminal ID nor the management port of that ID, which may be 0 (R148, R162); and PERMIT follows SLEEP_PERMIT
(R163, R470). (DEDUCED, log entry 32) -/
def Cx.reloadRecord (cx : Cx) : Cx :=
  let cx := if cx.recState = Rec.registered then cx.lowerRecord Rec.serial
    else if cx.recState = Rec.serial ∧ (cx.recTid ≠ 0 ∨ cx.idPort cx.recTid) then
      cx.recEdit fun cx => ((cx.bind cx.recTid none).setIdPort cx.recTid false).idPut 0x34 4 0
    else cx
  cx.mirrorPermit

/-- The identity records that firmware reloads: every persisted one, but for a channel that is fallow, which holds none
(R37, R163). (DEDUCED, log entry 143) -/
def State.reloadIdent (s : State) : Sparse Byte :=
  s.hl.psIdent.filter fun e => !(s.view (chanOf (e.1 / recSize))).flg Reg.CH_MODE F.CH_MODE_FALLOW

/-- The log's SEQ goes on from the last persisted record. (DEDUCED, log entry 32) -/
def Headland.reloadSeq (h : Headland) : Headland :=
  match h.mb.psLog.getLast? with
  | some r => h.put Reg.HL_LOG_SEQ (BitVec.ofNat 32 (leNat (r.take 4)))
  | none => h

/-- At first boot the references of the ageing monitors are recorded (R564). (DESIGN CHOICE, log entry 145) -/
def Headland.recordAgeing (h : Headland) : Headland :=
  if h.ageRefs.isEmpty then { h with ageRefs := (List.range 38).map fun i => Config.pathDelay i h.stu.tick } else h

/-- The first start of an image in slot `n` after a device reset: firmware writes BOOT, and reloads the retirement maps
and then the identity records. No channel can leave Disabled before (R524, R648, R649).
(DEDUCED, log entries 32 and 144) -/
def State.startUp (s : State) (n : Nat) : State :=
  if s.hl.fw.started then s
  else
    let s := s.mapHl fun h =>
      let h := (h.setFw { h.fw with started := true }).reloadSeq.recordAgeing
      h.logWrite ⟨LogKind.boot, 31, leBytes 4 n ++ leBytes 4 ((h.fw.slot n).version % 2 ^ 32)⟩
        (Config.bootSeverity h.mb.boots).toNat
    let s := s.hl.mb.psPinned.foldl State.reloadBank s
    (s.mapHl fun h => { h with ident := s.reloadIdent }).overChans Cx.reloadRecord (List.finRange 17)

/-- FW_ACTIVATE: the restart begins behind the response. (DEDUCED, log entry 144) -/
def State.fwRestart (s : State) (n : Nat) : State :=
  (s.mapHl fun h =>
    let old := (h.get Reg.HL_FW_VERSION).toNat
    ((h.logDue LogKind.fwActivate 31 [n, old, (h.fw.slot n).version]).inc Cnt.HL_CNT_FW_ACTIVATIONS).fwStart n
      FwState.trial).startUp n

/-- FW_ACTIVATE. -/
def execFwActivate (m : CmdHead) (b : Bool) (s : State) : Out :=
  s.alive fun s =>
    let n := b2n b
    let t := { s with hl := s.hl.take }
    let ok := s.hl.taking m 0x0403 && t.hl.refuses m 0x0403 false true == none && t.fwActivateCheck n == MbStatus.ok
    let r := s.command m 0x0403 false true true fun s => (s, s.fwActivateCheck n, [])
    if ok then r.fwRestart n else r

/-! ### Readiness -/

/-- FW_READY: the image that restarts passes its start checks. (DEDUCED, log entry 104) -/
def Headland.fwReady (h : Headland) : Headland :=
  let st := h.fwState
  let up (h : Headland) : Headland :=
    let h := h.setFw { h.fw with ready := true }
    let v := (h.get Reg.HL_FW_VERSION).toNat
    ((h.fwEvent FwReason.ready).fwNotice FwReason.ready h.fwSlot v).logDue LogKind.fwRestart 31 [FwReason.ready, v]
  if st = FwState.trial ∧ h.fw.ready = false then up h
  else if st = FwState.restarting then up (h.setFwState FwState.running)
  else h

/-- FW_READY: what waited for firmware in the channels is then acted on (R572). (DEDUCED, log entry 125) -/
def execFwReady (s : State) : Out :=
  s.alive fun s =>
    let t : State := { s with hl := s.hl.fwReady }
    if s.hl.fwUp then t else t.overChans Cx.fwCatchUp (List.finRange 17)

/-- FW_REVERT. -/
def Headland.fwRevert (h : Headland) : Headland :=
  if h.fwState = FwState.trial ∧ h.fw.ready = false then
    let h := (h.fwStart h.fw.accepted FwState.restarting).inc Cnt.HL_CNT_FW_REVERTS
    let v := (h.get Reg.HL_FW_VERSION).toNat
    ((h.fwEvent FwReason.reverted).fwNotice FwReason.reverted h.fwSlot v).logDue LogKind.fwRestart 31
      [FwReason.reverted, v]
  else h

def execFwRevert (s : State) : Out := s.onHl Headland.fwRevert

/-- FW_ACCEPT; `ok` is the persist port's answer (R556). -/
def Headland.fwAccept (h : Headland) (ok : Bool) : Headland × Nat :=
  if h.fwState ≠ FwState.trial ∨ h.fw.ready = false then (h, MbStatus.badState)
  else if ok = false then (h.inc Cnt.HL_CNT_PS_ERR, MbStatus.persistErr)
  else
    let n := h.fwSlot
    let i := h.fw.slot n
    let svn := max h.fwCounter i.svn
    let h := (h.setFw { h.fw with accepted := n, counter := svn }).setFwState FwState.running
    let h := h.setf Reg.HL_FW_STATUS F.HL_FW_STATUS_COUNTER svn
    (h.fwNotice FwReason.accepted n i.version, MbStatus.ok)

def execFwAccept (m : CmdHead) (ok : Bool) (s : State) : Out :=
  s.devCommand m 0x0404 true false (hlRun fun h => h.fwAccept ok)

/-- What FW_INFO says of a slot (R557). -/
def FwImage.info (i : FwImage) : List Byte :=
  leBytes 4 (b2n i.valid + i.svn % 2 ^ 16 * 2 ^ 16) ++ leBytes 4 i.version

def Headland.fwInfo (h : Headland) : List Byte :=
  h.fw.slotA.info ++ h.fw.slotB.info ++
    leBytes 4 (h.fwCounter + h.fw.accepted % 2 * 2 ^ 16 + h.fwSlot * 2 ^ 17)

def execFwInfo (m : CmdHead) (s : State) : Out :=
  s.devCommand m 0x0405 false true fun s => (s, MbStatus.ok, s.hl.fwInfo)

end Sys2Proof.Machine
end

