-- ==== Sys2Proof/Machine/FramePort.lean ====
section
/-!
DEFINITION. The frame port and the optics signal (R600, R606 to R613).
-/

namespace Sys2Proof.Machine

open Sys2Proof

/-! ### Output (R607 to R609) -/

/-- The head of a lane leaves it. -/
def Cx.lanePop (cx : Cx) (n : Nat) : Cx := cx.setLane n (cx.lane n).tail

/-- The head frame of a lane is sent, from SOP to EOP. A lost frame moves no byte (R339); a cell error ends the frame
early (R609). -/
def Cx.fpSend (cx : Cx) (n : Nat) (d : FpDeliv) (ecc : EccFault) : Cx :=
  let cx := cx.lanePop n
  match cx.checkChain d.frame.cell with
  | (cx, .stopped) => cx
  | (cx, .lost) => cx.releaseFrame d.frame
  | (cx, .whole) =>
    let len := cx.deliverLen d.frame d.trunc
    let r := cx.eccCells ecc d.frame.cell 0 len
    let cx := r.1
    let bytes := cx.frameBytes d.frame.cell len
    let out := if r.2 then bytes.take (Config.fpEnd cx.hl.stu.tick % (bytes.length + 1)) ++ [Config.freeByte 0] else bytes
    let cx := cx.inc (if r.2 then Cnt.CH_CNT_FP_OUT_ABORTED else Cnt.CH_CNT_FP_OUT_FRAMES)
    let m := cx.fpoMeta n d (3 * b2n r.2)
    ({ cx with ch := { cx.ch with fpo := some (n, m, out) } } : Cx).releaseFrame d.frame

/-- The first lane in turn whose head is ready and not held by XOFF; a held head is counted once. -/
def Cx.fpChoose (cx : Cx) (xoff : BitVec 16) : List Nat → Cx × Option (Nat × FpDeliv)
  | [] => (cx, none)
  | n :: ns =>
    match cx.lane n with
    | [] => cx.fpChoose xoff ns
    | d :: l =>
      if xoff.getLsbD n then
        let cx := if d.waited then cx else (cx.setLane n ({ d with waited := true } :: l)).inc Cnt.CH_CNT_FP_XOFF_WAIT
        cx.fpChoose xoff ns
      else (cx, some (n, d))

/-- Lanes in round-robin order behind the lane last sent on. (DEDUCED, log entry 111) -/
def Cx.laneTurn (cx : Cx) : List Nat :=
  let k := match cx.ch.fpo with
    | some x => x.1 + 1
    | none => 0
  (List.range 16).map fun i => (k + i) % 16

/-- A delivery at the head of a lane is dropped while the port is not enabled (R613). -/
def Cx.fpDrop (cx : Cx) (n : Nat) (cnt : Nat) : Cx :=
  match cx.lane n with
  | [] => cx
  | d :: _ => ((cx.lanePop n).releaseFrame d.frame).inc cnt

def Cx.fpDropLane (cx : Cx) (cnt n : Nat) : Cx := times (fun cx => cx.fpDrop n cnt) (cx.lane n).length cx

/-- Every waiting delivery is dropped. (DEDUCED, log entry 111) -/
def Cx.fpDropAll (cx : Cx) (cnt : Nat) : Cx := (List.range 16).foldl (fun cx n => cx.fpDropLane cnt n) cx

/-- FP_OUT_FRAME, with FPO_XOFF at the moment of choice. Deliveries wait while the pads are held (R486).
(DEDUCED, log entry 111) -/
def Cx.fpOut (cx : Cx) (xoff : BitVec 16) (ecc : EccFault) : Cx :=
  let cx := cx.setf Reg.CH_PORT_STATUS F.CH_PORT_STATUS_XOFF xoff.toNat
  if cx.flg Reg.CH_PWR_STATUS F.CH_PWR_STATUS_PAD_HELD then cx
  else if cx.fpEn = false then cx.fpDropAll Cnt.CH_CNT_FP_OUT_DROP
  else match cx.fpChoose xoff cx.laneTurn with
    | (cx, some (n, d)) => cx.fpSend n d ecc
    | (cx, none) => cx

def execFpOutFrame (c : ChanId) (xoff : BitVec 16) (ecc : EccFault) (s : State) : Out :=
  s.onChanEcc c ecc fun cx => if cx.running && !cx.hl.outputsReset then cx.fpOut xoff ecc else cx

/-! ### Input (R610 to R612) -/

/-- The fields of FPI_META. -/
structure FpiMeta where
  len    : Nat
  launch : Option Word
  queue  : Nat
  ctx    : Nat
  bad    : Bool
  deriving DecidableEq, Repr

def fpiMeta (m : BitVec 256) : FpiMeta :=
  let v := m.toNat
  let len := nbits v 13 0
  { len := len
    launch := if nbit v 14 then some (BitVec.ofNat 32 (nbits v 63 32)) else none
    queue := nbits v 71 64
    ctx := nbits v 109 96
    bad := nbits v 31 15 != 0 || nbits v 95 72 != 0 || nbits v 127 110 != 0 || nbits v 255 128 != 0 ||
      len == 0 || decide (15996 < len) }

/-- FPI_READY can rise: the outputs are driven, the port is enabled, the pads are not held, and the channel takes upstream
frames (R474, R613, R624). -/
def Cx.fpiOpen (cx : Cx) : Bool :=
  !cx.hl.outputsReset && cx.fpEn && cx.running && cx.clsOpen && !cx.hl.resetRuns cx.id && !cx.ch.disabling && !cx.flg Reg.CH_PWR_STATUS F.CH_PWR_STATUS_PAD_HELD

/-- FPI_READY at the pin: low while the port takes no frame or a presented frame waits for its reservation
(R611, R613, R625). Between frames it is free. (DEDUCED, log entry 113) -/
def Cx.fpiReady (cx : Cx) : Bool :=
  cx.fpiOpen && !cx.ch.fpWait && Config.fpiReady cx.id.val cx.hl.stu.tick

def Cx.setFpWait (cx : Cx) (b : Bool) : Cx := { cx with ch := { cx.ch with fpWait := b } }

/-- The cells of a dropped frame: what was stored is released, the rest of the reservation returns. -/
def Cx.fpiDrop (cx : Cx) (n : Nat) (bytes : List Byte) (slot : Option Nat) (cnt : Nat) : Cx :=
  let cx := match cx.storeFrame Owner.usFp true bytes with
    | (some cell, cx) => if bytes.isEmpty then cx else cx.releaseChain Owner.usFp cell
    | (none, cx) => cx
  ((cx.unreserve (n - cellsFor bytes.length)).flyOut slot).inc cnt

/-- FP_IN_FRAME: a frame is presented, with its bytes up to EOP. (DEDUCED, log entry 111) -/
def Cx.fpIn (cx : Cx) (raw : BitVec 256) (bytes : List Byte) (abort : Bool) (ecc : EccFault) : Cx :=
  let m := fpiMeta raw
  if m.bad then (cx.setFpWait false).inc Cnt.CH_CNT_FP_IN_BAD_META
  else
    let n := cellsFor (max m.len 60 + 4)
    match cx.reserve n with
    | (cx, false) => (cx.when (!cx.ch.fpWait) fun cx => cx.inc Cnt.CH_CNT_GR_RESERVE_WAIT).setFpWait true
    | (cx, true) =>
      let cx := cx.setFpWait false
      let e := cx.enter m.ctx (cx.fld (Reg.CH_TXQ_MAP m.queue) F.CH_TXQ_MAP_PORT)
      let cx := e.2
      if bytes.length ≠ m.len then cx.fpiDrop n (bytes.take m.len) e.1.slot Cnt.CH_CNT_FP_IN_LEN_ERR
      else if abort then cx.fpiDrop n bytes e.1.slot Cnt.CH_CNT_FP_IN_ABORT
      else
        let frame := padFcs bytes
        match cx.storeFrame Owner.usFp true frame with
        | (none, cx) => cx
        | (some cell, cx) =>
          (cx.inc Cnt.CH_CNT_FP_IN_FRAMES).idleRestart.outcome
            { entry := e.1, up := true, client := Owner.usFp, cell := cell, bytes := frame, plain := bytes, ts := cx.time8,
              source := 0x100, queue := m.queue, src := none, launch := m.launch } ecc

def execFpInFrame (c : ChanId) (raw : BitVec 256) (bytes : List Byte) (abort : Bool) (ecc : EccFault)
    (s : State) : Out :=
  s.onChanEcc c ecc fun cx => if cx.fpiOpen then cx.fpIn raw bytes abort ecc else cx

/-! ### Enable, and the optics (R600, R613) -/

/-- A write of CH_PORT_CFG. With FP_EN = 0 every delivery that comes to the head of its lane is dropped. -/
def Cx.fpCfg (cx : Cx) (v : Word) : Cx :=
  let cx := cx.setf Reg.CH_PORT_CFG F.CH_PORT_CFG_FP_EN (getF v F.CH_PORT_CFG_FP_EN)
  if cx.fpEn then cx else (cx.setFpWait false).fpDropAll Cnt.CH_CNT_FP_OUT_DROP

def execFpEnWrite (c : ReadBy) (v : Word) (s : State) : Out := s.coreWriteEcc c fun cx => cx.fpCfg v

/-- SD_LOSS: SD falls, or rises when `level` is 1. A fall outside Disabled is counted (R600).
(DEDUCED, log entry 112) -/
def Cx.sdLoss (cx : Cx) (level : Bool) : Cx :=
  let cx := cx.setf Reg.CH_PORT_STATUS F.CH_PORT_STATUS_SD (b2n level)
  if level ∨ cx.mode = ModeCode.disabled then cx else cx.inc Cnt.CH_CNT_PMD_SD_LOSS

/-- DEDUCED, log entry 112. -/
def execSdLoss (c : ChanId) (level : Bool) (s : State) : Out := s.onChan c fun cx => cx.sdLoss level

end Sys2Proof.Machine
end

