-- ==== Sys2Proof/Machine/Modes.lean ====
section
/-!
DEFINITION. Channel modes and resets (chapter 02 and R633 to R640): enabling, orderly disable, channel reset, wedge
detection, device reset, and the start of the firmware (R571, R648).
-/

namespace Sys2Proof.Machine

open Sys2Proof

/-! ### Enabling (R56 to R60, R649) -/

/-- The line island starts: no sync state is sampled yet, the guard is in NOSYNC, and leaving ACCEPT advances the epoch
(R80, R87, R92, R116). (DEDUCED, log entry 22) -/
def Cx.guardStart (cx : Cx) : Cx :=
  let old := cx.guard
  let cx := (cx.setDs { cx.ch.ds with cur := none, prevSfc := none }).setf Reg.CH_DS_STATUS F.CH_DS_STATUS_FRAMER_SYNC 0
  ((((cx.setGuard Guard.nosync).setCount 0).setBase false).setRun 0).afterGuard old

/-- Firmware takes enables: HL_FW_STATUS.STATE is RUNNING or TRIAL (R649). -/
def Headland.fwTakes (h : Headland) : Bool := h.fwState == FwState.running || h.fwState == FwState.trial

def Cx.fallow (cx : Cx) : Bool := cx.flg Reg.CH_MODE F.CH_MODE_FALLOW

/-- DEDUCED, log entry 19. -/
def Cx.setEnable (cx : Cx) (b : Bool) : Cx := cx.setf Reg.CH_MODE_CTL F.CH_MODE_CTL_ENABLE (b2n b)

/-- ENABLE is written 1 (R57, R58, R649). (DEDUCED, log entry 22) -/
def Cx.enable (cx : Cx) : Cx :=
  if cx.hl.fwTakes = false then cx.configEvent Reg.CH_MODE_CTL
  else if cx.fallow then cx
  else if cx.mode = ModeCode.disabled then (cx.setEnable true).guardStart.enterAcquire
  else cx.setEnable true

/-! ### Orderly disable (R61, R379) -/

/-- Bursts that have not begun are not sent; what they hold is discarded (R61 step 2, R203).
(DEDUCED, log entry 23) -/
def Cx.endBursts (cx : Cx) : Cx :=
  let bursts := cx.ch.us.bursts
  let cx := cx.setBursts (bursts.filter Burst.live)
  let lost := (bursts.filter fun b => !b.live).flatMap Burst.done
  let cx := lost.foldl (fun cx f =>
    (cx.inc Cnt.CH_CNT_US_NOT_SENT).txCompleteOpt f.src CplStatus.notSent f.ftype none) cx
  if cx.ch.us.bursts.isEmpty then cx.usDiscard else cx

def allQueues (f : Cx → Bool → Nat → Cx) (cx : Cx) : Cx :=
  let cx := (List.range 256).foldl (fun cx q => f cx true q) cx
  (List.range 256).foldl (fun cx q => f cx false q) cx

/-- The orderly disable begins: every queue is taken down, and deliveries to the frame port are dropped.
(DEDUCED, log entry 23) -/
def Cx.disableBegin (cx : Cx) : Cx :=
  let cx : Cx := { cx with ch := { cx.ch with disabling := true } }
  let cx := allQueues (fun cx tx q => cx.takeDown tx q true) cx
  cx.endBursts.fpDropAll Cnt.CH_CNT_DISABLE_DROP

/-- ENABLE is written 0 (R58, R61). (DEDUCED, log entries 23 and 37) -/
def Cx.disable (cx : Cx) : Cx :=
  let cx := cx.setEnable false
  if cx.modeIn [ModeCode.acquire, ModeCode.service] && !cx.ch.disabling then cx.disableBegin else cx

/-- A write of CH_MODE_CTL. A write that leaves ENABLE as it is requests nothing (R656). (DEDUCED, log entry 19) -/
def Cx.modeCtl (cx : Cx) (v : Word) : Cx :=
  let cx := cx.setf Reg.CH_MODE_CTL F.CH_MODE_CTL_FAST_OK (getF v F.CH_MODE_CTL_FAST_OK)
  let old := cx.flg Reg.CH_MODE_CTL F.CH_MODE_CTL_ENABLE
  if getB v F.CH_MODE_CTL_ENABLE then (if old then cx else cx.enable) else (if old then cx.disable else cx)

/-- The word of CH_MODE_CTL. -/
def modeCtlWord (en fastOk : Bool) : Word := BitVec.ofNat 32 (b2n en + 2 * b2n fastOk)

/-- ENABLE: a write of CH_MODE_CTL with ENABLE = 1. (DEDUCED, log entry 19) -/
def execEnable (c : ChanId) (fastOk : Bool) (s : State) : Out := s.coreWrite c fun cx => cx.modeCtl (modeCtlWord true fastOk)

/-- ORDERLY_DISABLE: a write of CH_MODE_CTL with ENABLE = 0. -/
def execOrderlyDisable (c : ReadBy) (fastOk : Bool) (s : State) : Out :=
  s.coreWriteEcc c fun cx => cx.modeCtl (modeCtlWord false fastOk)

/-- No cipher work and no burst is in progress. (DEDUCED, log entry 24) -/
def Cx.quiet (cx : Cx) : Bool := cx.ch.ds.cipherQ.isEmpty && !(cx.ch.us.bursts.any Burst.live)

/-- Every queue is idle, and the stream holds no data write. (DEDUCED, log entry 24) -/
def Cx.drained (cx : Cx) : Bool :=
  (List.range 256).all (fun q => cx.qIdle true q && cx.qIdle false q) && cx.ch.rings.hold.isEmpty &&
    cx.ch.stream.items.all fun i => match i with
      | .data _ _ _ => false
      | _ => true

/-- The channel enters Disabled at the end of the disable. (DEDUCED, log entry 25) -/
def Cx.disabled (cx : Cx) : Cx :=
  let cx := cx.setAct Act.off
  let cx : Cx := { cx with ch := { cx.ch with disabling := false, rings := { cx.ch.rings with reads := [] } } }
  ((cx.endEntry.setMode ModeCode.disabled).txOff).tuCheck

/-- DISABLE_COMPLETE: payload has ended, what is left is dropped, and when every owed completion is written the mode
changes. A halt that arises meanwhile prevails (R59). (DEDUCED, log entry 23) -/
def Cx.disableComplete (cx : Cx) : Cx :=
  if cx.ch.disabling && cx.modeIn [ModeCode.acquire, ModeCode.service] && cx.quiet then
    let cx := cx.endDelineation.usDiscard.dropPartials.fpDropAll Cnt.CH_CNT_DISABLE_DROP
    let cx := allQueues Cx.queueIdle cx
    if cx.drained && cx.modeIn [ModeCode.acquire, ModeCode.service] then cx.disabled else cx
  else cx

/-- DEDUCED, log entry 24. -/
def execDisableComplete (c : ReadBy) (s : State) : Out :=
  s.onChanEcc c.chan c.ecc fun cx => if cx.ch.coreStopped then cx else cx.disableComplete

/-! ### Channel reset (R73 to R77, R636, R637) -/

/-- The value that makes GO act. -/
def resetGuard : Nat := 0x5A17

/-- A source of a channel (R401). -/
def chanSource (c src : Nat) : Bool := src / 24 == c && decide (src < 408)

/-- The items without the event records of a channel. -/
def dropSources (c : Nat) (l : List StreamItem) : List StreamItem :=
  l.filter fun i => match i with
    | .event r => !chanSource c r.source
    | _ => true

def onlySources (c : Nat) (l : List StreamItem) : List StreamItem :=
  l.filter fun i => match i with
    | .event r => chanSource c r.source
    | _ => false

/-- Pending records of the channel's sources in the Headland stream and among the deferred are discarded (R406). -/
def Headland.discardSources (h : Headland) (c : Nat) : Headland :=
  let h := h.discardEvents (onlySources c h.stream.items)
  let h := h.discardEvents ((h.deferred.filter fun r => chanSource c r.source).map StreamItem.event)
  let d := drainHead (dropSources c h.stream.items) h
  let h : Headland := { d.2 with
    stream := { h.stream with items := d.1 }
    deferred := h.deferred.filter fun r => !chanSource c r.source }
  (List.range 16).foldl Headland.syncDeferred h

/-- Step 2 of R75: outputs take their reset values, the stream closes, and pending events are discarded.
(DEDUCED, log entry 28) -/
def Cx.resetClose (cx : Cx) : Cx :=
  let cx := (cx.fpoCut.cutBurst.txOff.setBursts []).setPwr { cx.ch.pwr with lane := none }
  let cx := (cx.put Reg.CH_LANE (chReset Reg.CH_LANE)).setf Reg.CH_PWR_STATUS F.CH_PWR_STATUS_REG_LP 0
  let h := cx.hl.discardEvents cx.ch.stream.items
  let d := drainHead (dropSources cx.id.val cx.ch.stream.items) h
  { cx with
    ch := { cx.ch with stream := { cx.ch.stream with items := d.1, closed := true } }
    hl := d.2.discardSources cx.id.val }

/-- A channel reset is accepted, from HL_RST_CHAN (0) or CH_RESET (1). While one runs there is no further one.
(DEDUCED, log entry 27) -/
def State.resetAccept (s : State) (requester : Nat) (c : ChanId) : State :=
  if s.hl.resetRuns c then s
  else
    let s := s.hoReset c
    let s := s.mapHl fun h =>
      (((h.setf Reg.HL_RST_CHAN_LO ⟨c.val, 1⟩ 1).setf Reg.HL_RST_CHAN_HI ⟨c.val, 1⟩ 0).mvChanReset c).logDue
        LogKind.chanReset c [requester]
    s.modChan c Cx.resetClose

/-- A write of CH_RESET (R73). -/
def State.chReset (s : State) (c : ChanId) (v : Word) : State :=
  if s.hl.resetRuns c then s
  else if s.chans[c].coreStopped then s.modChan c fun cx => cx.inc Cnt.CH_CNT_PWR_STOPPED_ACCESS
  else if getB v F.CH_RESET_GO = false then s
  else if getF v F.CH_RESET_GUARD = resetGuard then s.resetAccept 1 c
  else s.modChan c fun cx => cx.inc Cnt.CH_CNT_RESET_REFUSED

/-- CH_RESET_GO. -/
def execChResetGo (c : ChanId) (v : Word) (s : State) : Out :=
  s.access fun s => s.chReset c (setF v F.CH_RESET_GO 1)

/-- The requests of a write of HL_RST_CHAN. -/
def State.rstChan (s : State) (mask : Nat) : State :=
  (List.finRange 17).foldl (fun s c => if nbit mask c.val then s.resetAccept 0 c else s) s

/-- HL_RST_CHAN_REQ. -/
def execHlRstChanReq (mask : BitVec 17) (s : State) : Out := s.access fun s => s.rstChan mask.toNat

/-- Registers that a channel reset keeps (R340, R646). (DEDUCED, log entry 26) -/
def keptReg (off : Nat) : Bool :=
  off == Reg.CH_GR_BANKS || off == Reg.CH_FB_TREE || off == Reg.CH_FB_CTX ||
    (decide (Reg.CH_FB_ERR 0 ≤ off) && decide (off ≤ Reg.CH_FB_ERR 21))

/-- The channel after its reset (R76). (DEDUCED, log entry 26) -/
def Chan.afterReset (c : Chan) (now : DWord) : Chan :=
  let r := Chan.reset 0
  let r := { r with
    regs := c.regs.filter fun e => keptReg e.1
    pm := { r.pm with last := c.pm.last, steps := c.pm.steps }
    fm := { c.fm with clean := true, beat := 0, beatAt := now } }
  let r := r.setf Reg.CH_MODE F.CH_MODE_FALLOW (c.fld Reg.CH_MODE F.CH_MODE_FALLOW)
  (r.setf Reg.CH_PM_CUR15_FLAGS F.CH_PM_CUR15_FLAGS_INCOMPLETE 1).setf Reg.CH_PM_CUR24_FLAGS
    F.CH_PM_CUR24_FLAGS_INCOMPLETE 1

/-- Data writes that the reset abandons (R75 step 3). -/
def Stream.writes (st : Stream) : Nat :=
  (st.items.filter fun i => match i with
    | .data _ _ _ => true
    | _ => false).length

/-- Steps 3 to 6 of R75. (DEDUCED, log entries 25, 26 and 27) -/
def Cx.resetDone (cx : Cx) : Cx :=
  let cx := if cx.isStuSource && cx.ch.tu.valid then cx.tuInvalid else cx
  let n := cx.ch.stream.writes
  let act := cx.actState
  let watched := ((List.range 36).filter fun k => cx.lineWatched k).map cx.lineAddr
  let cx := ({ cx with ch := cx.ch.afterReset cx.hl.stu.tick } : Cx).mirrorPermit.mirrorStu
  let cx := cx.onHl fun h =>
    let h := (watched.foldl Headland.unwatched h).add Cnt.HL_CNT_STREAM_ABANDON n
    let h := if n = 0 then h else h.raise Ev.streamAbandon (cx.id.val + min 65535 n * 2 ^ 16)
    let h := (h.setf Reg.HL_RST_CHAN_LO ⟨cx.id.val, 1⟩ 0).setf Reg.HL_RST_CHAN_HI ⟨cx.id.val, 1⟩ 1
    let h := (h.satInc16 (Reg.HL_RST_RESETS cx.id.val)).setf Reg.HL_FM_WEDGED ⟨cx.id.val, 1⟩ 0
    h.raise Ev.chanResetDone cx.id.val
  if act = Act.off then cx else cx.actReport act Act.off

/-- CHANNEL_RESET_DONE. -/
def execChannelResetDone (c : ChanId) (s : State) : Out :=
  s.alive fun s => if s.hl.resetRuns c then s.modChan c Cx.resetDone else s

/-! ### The heartbeat (R55, R70, R549) -/

/-- HEARTBEAT: it advances while the core sequencer runs, and is seen by the wedge detector.
(DEDUCED, log entry 30) -/
def Cx.heartbeat (cx : Cx) : Cx :=
  if cx.ch.coreStopped then cx
  else
    let n := (cx.fld Reg.CH_MODE F.CH_MODE_HEARTBEAT + 1) % 256
    let cx := cx.setf Reg.CH_MODE F.CH_MODE_HEARTBEAT n
    { cx with ch := { cx.ch with fm := { cx.ch.fm with beat := n, beatAt := cx.hl.stu.tick } } }

def execHeartbeat (c : ChanId) (s : State) : Out := s.onChan c Cx.heartbeat

/-- The heartbeat has not advanced for TIMEOUT_US. (DEDUCED, log entry 30) -/
def Cx.wedgeDue (cx : Cx) : Bool :=
  cx.hl.flg Reg.HL_FM_WEDGE_CFG F.HL_FM_WEDGE_CFG_EN && cx.hl.fwUp && !cx.ch.coreStopped &&
    !cx.modeIn [ModeCode.stop, ModeCode.disabled] &&
    decide (1000 * cx.hl.fld Reg.HL_FM_WEDGE_CFG F.HL_FM_WEDGE_CFG_TIMEOUT_US ≤
      (cx.hl.stu.tick - cx.ch.fm.beatAt).toNat)

/-- WEDGE_DETECT. (DEDUCED, log entry 30) -/
def execWedgeDetect (c : ChanId) (s : State) : Out :=
  s.onChan c fun cx => if cx.wedgeDue then cx.onHl fun h => h.markWedged c cx.ch.fm.beat else cx

/-! ### Device reset (R633 to R635, R647) -/

/-- A write of HL_RST_DEVICE: the reset begins 1 µs later. (DEDUCED, log entry 21) -/
def Headland.rstDevice (h : Headland) (v : Word) : Headland :=
  if getB v F.HL_RST_DEVICE_GO = false then h
  else if getF v F.HL_RST_DEVICE_GUARD ≠ resetGuard then h.inc Cnt.HL_CNT_RESET_REFUSED
  else if h.pins.resetAt.isSome then h
  else { h with pins := { h.pins with resetAt := some (h.stu.tick + 1000) } }

/-- HL_RST_DEVICE_GO. -/
def execHlRstDeviceGo (v : Word) (s : State) : Out :=
  s.hlWrite fun h => h.rstDevice (setF v F.HL_RST_DEVICE_GO 1)

/-- The device reset begins. -/
def Headland.holdReset (h : Headland) (rstN : Bool) : Headland :=
  { h with pins := { h.pins with resetHeld := true, resetAt := none, rstN := h.pins.rstN || rstN } }

/-- RST_N_ASSERT. -/
def execRstNAssert (s : State) : Out := .next { s with hl := s.hl.holdReset true }

/-- A slot that was being written when the reset came does not pass its signature check (R568).
(DEDUCED, log entry 31) -/
def Firmware.afterReset (f : Firmware) : Firmware := { f with staged := none, locked := false, writing := none, ready := false, started := false }

/-- The Headland after a device reset: what lies behind the persist port is kept, and TEST_EN is an input.
(DEDUCED, log entry 31) -/
def Headland.afterReset (h : Headland) : Headland :=
  let r := Headland.reset
  let r := { r with
    fw := h.fw.afterReset
    psIdent := h.psIdent, ageRefs := h.ageRefs
    mb := { r.mb with boots := h.mb.boots + 1, psLog := h.mb.psLog, psPinned := h.mb.psPinned }
    pins := { r.pins with testEn := h.pins.testEn } }
  r.put Reg.HL_RST_STATUS (if h.pins.rstN then 1 else 2)

/-- DEVICE_RESET_DONE: the reset has ended and every SRAM and register is at its reset value.
(DEDUCED, log entry 31) -/
def State.deviceReset (s : State) : State :=
  if s.hl.pins.resetHeld ∨ s.hl.pins.resetAt.isSome then { s with chans := resetChans, hl := s.hl.afterReset } else s

def execDeviceResetDone (s : State) : Out := .next s.deviceReset

/-! ### The start of the firmware (R163, R524, R571, R648) -/

/-- DEDUCED, log entry 32; DESIGN CHOICE, log entry 5. -/
def bootImage (b : BootSlot) (old : FwImage) : FwImage :=
  ⟨b.valid, old.torn && !b.valid, b.svn.toNat, b.version.toNat, b.regMin.toNat, b.regCur.toNat⟩

/-- The persist device as the boot ROM finds it; `none`: as the block last left it. -/
def Firmware.found (f : Firmware) (dev : Option BootDev) : Firmware :=
  match dev with
  | some d => { f with
      slotA := bootImage d.slotA f.slotA, slotB := bootImage d.slotB f.slotB
      accepted := b2n d.accepted, counter := d.counter.toNat }
  | none => f

/-- The slot that the boot ROM starts. -/
def Firmware.bootSlot (f : Firmware) : Option Nat :=
  let ok (n : Nat) : Bool := (f.slot n).valid && decide (f.counter ≤ (f.slot n).svn)
  if ok f.accepted then some f.accepted else if ok (1 - f.accepted) then some (1 - f.accepted) else none

/-- FW_BOOT: the image starts, and reaches RUNNING when what must come first is done (R648). Each read that the persist
device answers with ERROR is counted (R619). (DEDUCED, log entries 32 and 143; DESIGN CHOICE, log entry 5) -/
def State.fwBoot (s : State) (dev : Option BootDev) : State :=
  if s.hl.fwState ≠ FwState.bootRom then s
  else
    let f := s.hl.fw.found dev
    let s := s.mapHl fun h =>
      let h : Headland := match dev with
        | some d => { h.add Cnt.HL_CNT_PS_ERR d.errors with ageRefs := d.ageing }
        | none => h
      (h.setFw f).setf Reg.HL_FW_STATUS F.HL_FW_STATUS_COUNTER f.counter
    match f.bootSlot with
    | none => s.mapHl fun h => h.setFwState FwState.noImage
    | some n =>
      let s := (s.mapHl fun h => h.setFw { f with accepted := n }).startUp n
      let s := s.mapHl fun h =>
        let h := h.fwStart n FwState.running
        h.setFw { h.fw with ready := true }
      s.overChans Cx.fwCatchUp (List.finRange 17)

/-- DEDUCED, log entry 32. -/
def execFwBoot (dev : Option BootDev) (s : State) : Out := s.alive fun s => s.fwBoot dev

/-! ### Test access (R624, R625) -/

/-- The messages that a stream of a channel, or the Headland's, has kept at its head while TEST_EN was 1 leave it. -/
def Cx.testOver (cx : Cx) : Cx :=
  let d := drainHead cx.ch.stream.items cx.hl
  { cx with ch := { cx.ch with stream := { cx.ch.stream with items := d.1 } }, hl := d.2 }
def Headland.testOver (h : Headland) : Headland :=
  let d := drainHead h.stream.items h
  { d.2 with stream := { h.stream with items := d.1 } }

/-- TEST_EN_CHANGE: while it is 1 the functional outputs are at their device reset state (R624). -/
def execTestEnChange (v : Bool) (s : State) : Out :=
  let s : State := { s with hl := { s.hl with pins := { s.hl.pins with testEn := v } } }
  .next (if v || s.hl.pins.resetHeld then s
    else (s.overChans Cx.testOver (List.finRange 17)).mapHl Headland.testOver)

/-- TX_EN of a channel at the pin. (DEDUCED, log entry 21) -/
def State.pinTxEn (s : State) (c : ChanId) : Bool := !s.hl.outputsReset && s.chans[c].us.txEn

/-- LANE_SEL and LANE_CLAIM of a channel at the pins: while the hold cells are latched, as they hold them (R484, R625).
(DEDUCED, log entries 21 and 121) -/
def State.pinLane (s : State) (c : ChanId) : Nat × Bool :=
  if s.hl.outputsReset || s.chans[c].flg Reg.CH_MODE F.CH_MODE_FALLOW then (0, false)
  else s.chans[c].pwr.lane.getD s.chans[c].laneOut

/-- FPI_READY of a channel at the pin. (DEDUCED, log entry 21) -/
def State.pinFpiReady (s : State) (c : ChanId) : Bool :=
  (s.view c).fpiReady

/-- RET_LP of a channel at the pin: 0 in its channel reset (R625). (DEDUCED, log entry 21) -/
def State.pinRetLp (s : State) (c : ChanId) : Bool :=
  !s.hl.outputsReset && !s.hl.resetRuns c && s.chans[c].flg Reg.CH_PWR_STATUS F.CH_PWR_STATUS_REG_LP

/-- PPS_OUT at the pin. (DEDUCED, log entry 21) -/
def State.pinPps (s : State) : Bool := !s.hl.outputsReset && s.hl.pins.pps

/-- TOD_OUT at the pin: it idles at 1 (R616, R625). (DEDUCED, log entry 21) -/
def State.pinTodOut (s : State) : Bool :=
  match s.hl.pins.todLast with
  | some m => s.hl.outputsReset || serialLevel m (s.hl.stu.tick - s.hl.pins.todAt).toNat
  | none => true

/-- Trigger output `n` at the pin: active during a pulse, at the level that INVERT selects (R454, R614). -/
def State.pinTrig (s : State) (n : Fin 16) : Bool :=
  !s.hl.outputsReset &&
    ((Sparse.get noPulse s.hl.pins.trig n != []) != s.hl.flg (Reg.HL_DRILL_TRIG n) F.HL_DRILL_TRIG_INVERT)

/-- FSEL of the management island, or of the host port island, at the pins: a change in progress shows the index
that it goes to (R622). -/
def State.pinFsel (s : State) (mg : Bool) : Nat :=
  if s.hl.outputsReset then 3
  else match s.hl.dvfs with
    | some d => if d.mg = mg ∧ d.volt = false then d.index else s.hl.fld Reg.HL_DVFS_STATUS (dvfsF mg)
    | none => s.hl.fld Reg.HL_DVFS_STATUS (dvfsF mg)

/-- VSEL of the management island, or of the host port island, at the pins (R622). -/
def State.pinVsel (s : State) (mg : Bool) : Nat :=
  if s.hl.outputsReset then 3
  else match s.hl.dvfs with
    | some d => if d.mg = mg ∧ d.volt then d.index else s.hl.fld Reg.HL_DVFS_STATUS (dvfsV mg)
    | none => s.hl.fld Reg.HL_DVFS_STATUS (dvfsV mg)

/-- HP_FATAL at the pin (R590). (DEDUCED, log entry 21) -/
def State.pinFatal (s : State) : Bool := !s.hl.outputsReset && s.hl.fatal

end Sys2Proof.Machine
end

