-- ==== Sys2Proof/Machine/Window.lean ====
section
/-!
DEFINITION. The indirect windows (R641 to R645): their selectors, and accesses through the tree and the context
aperture.
-/

namespace Sys2Proof.Machine

open Sys2Proof

/-! Reasons of HL_IW_STATUS. -/
namespace IwReason
def stopped : Nat := 1
def absent : Nat := 2
def protect : Nat := 3
def mode : Nat := 4
def ecc : Nat := 5
end IwReason

/-- Headland offset of an aperture. -/
def aperture (tree : Bool) : Nat := if tree then 0x20000 else 0x30000
def iwSel (tree : Bool) : Nat := if tree then Reg.HL_IW_TREE_SEL else Reg.HL_IW_CTX_SEL

/-- Discard the latch of an aperture. -/
def Headland.iwUnlatch (h : Headland) (tree : Bool) : Headland :=
  { h with latch := h.latch.filter fun e => !(e.1 / 0x10000 == aperture tree / 0x10000) }

/-- The latch table's default: no latch is held. -/
def noLatch (_ : Nat) : Option Word := none

def Headland.iwLatch (h : Headland) (tree : Bool) (o : Nat) (w : Word) : Headland :=
  { h with latch := Sparse.set noLatch h.latch (aperture tree + o) (some w) }
def Headland.iwLatched (h : Headland) (tree : Bool) (o : Nat) : Option Word :=
  Sparse.get noLatch h.latch (aperture tree + o)

/-- WINDOW_SELECT_WRITE. -/
def Headland.iwSelect (h : Headland) (tree : Bool) (v : Word) : Headland :=
  (h.put (iwSel tree) (v &&& 0x1F1F)).iwUnlatch tree

def execWindowSelectWrite (tree : Bool) (v : Word) (s : State) : Out := s.hlWrite fun h => h.iwSelect tree v

/-- Answer a target access. -/
def Headland.answer (h : Headland) (v : Nat) (err : Bool) : Headland :=
  { h with pins := { h.pins with rsp := some (BitVec.ofNat 64 v, err) } }

/-- An access that is answered other than normally (R644). -/
def Headland.iwDiscard (h : Headland) (tree : Bool) (reason o : Nat) : Headland :=
  let a := Reg.HL_IW_STATUS
  ((((h.setf a F.HL_IW_STATUS_DISCARD 1).setf a F.HL_IW_STATUS_REASON reason).setf a F.HL_IW_STATUS_CHAN
    (h.fld (iwSel tree) F.HL_IW_TREE_SEL_CHAN)).setf a F.HL_IW_STATUS_OFFSET o).inc Cnt.HL_CNT_IW_DISCARD

/-- Offset, size in bytes and data of an access; no data for a read. -/
def winParts : WinAcc → Nat × Nat × Option Nat
  | .read32 i => (4 * i.val, 4, none)
  | .read64 i => (8 * i.val, 8, none)
  | .write32 i w => (4 * i.val, 4, some w.toNat)
  | .write64 i v => (8 * i.val, 8, some v.toNat)

/-- A read of the selected channel (R643). (DEDUCED, log entry 12) -/
def Cx.iwRead (cx : Cx) (tree : Bool) (base o n : Nat) (ecc : EccFault) : Cx :=
  let sp := if tree then Space.tree else Space.context
  let hiHalf := n == 4 && o % 8 == 4
  match (if hiHalf then cx.hl.iwLatched tree (o - 4) else none) with
  | some w => cx.onHl fun h => h.answer w.toNat false
  | none =>
    let r := cx.spaceEcc ecc sp (base + o / 8 * 8) 8
    let cx := r.1.onHl fun h => h.iwUnlatch tree
    if r.2 = false then
      cx.onHl fun h => (h.answer (2 ^ (8 * n) - 1) true).iwDiscard tree IwReason.ecc o
    else
      let bs := cx.spaceBytes sp (base + o) n
      let cx := cx.onHl fun h => h.answer (leNat bs) false
      if n = 4 ∧ o % 8 = 0 then
        let hi := leNat (cx.spaceBytes sp (base + o + 4) 4)
        cx.onHl fun h => h.iwLatch tree o (BitVec.ofNat 32 hi)
      else cx

/-- A write to the selected channel. (DEDUCED, log entry 85) -/
def Cx.iwWrite (cx : Cx) (tree : Bool) (base o n v : Nat) : Cx :=
  let sp := if tree then Space.tree else Space.context
  let r := cx.spacePut sp (base + o) (leBytes n v)
  let cx := r.1.onHl fun h => h.iwUnlatch tree
  match r.2 with
  | .none => cx
  | .mode => cx.onHl fun h => h.iwDiscard tree IwReason.mode o
  | .protect => cx.onHl fun h => h.iwDiscard tree IwReason.protect o

/-- An access that meets a row of R644 before its data are reached: a read returns zero. -/
def Headland.iwRefuse (h : Headland) (tree : Bool) (reason o : Nat) (read : Bool) : Headland :=
  let h := (h.iwUnlatch tree).iwDiscard tree reason o
  if read then h.answer 0 false else h

/-- WINDOW_ACCESS (R642 to R644). (DEDUCED, log entry 12) -/
def State.windowAccess (s : State) (tree : Bool) (acc : WinAcc) (ecc : EccFault) : State :=
  let p := winParts acc
  let o := p.1
  let c := s.hl.fld (iwSel tree) F.HL_IW_TREE_SEL_CHAN
  let b := s.hl.fld (iwSel tree) F.HL_IW_TREE_SEL_BASE
  let refuse (s : State) (reason : Nat) : State :=
    { s with hl := s.hl.iwRefuse tree reason o p.2.2.isNone }
  if hc : c < 17 then
    let c : ChanId := ⟨c, hc⟩
    if (if tree then 31 else 23) < b then refuse s IwReason.absent
    else if s.chans[c].coreStopped then
      refuse (s.modChan c fun cx => cx.inc Cnt.CH_CNT_PWR_STOPPED_ACCESS) IwReason.stopped
    else if s.hl.tested c then refuse s IwReason.mode
    else s.modChan c fun cx => match p.2.2 with
      | none => cx.iwRead tree (b * 0x10000) o p.2.1 ecc
      | some v => cx.iwWrite tree (b * 0x10000) o p.2.1 v
  else refuse s IwReason.absent

def execWindowAccess (tree : Bool) (acc : WinAcc) (ecc : EccFault) (s : State) : Out :=
  s.access fun s => s.windowAccess tree acc ecc

end Sys2Proof.Machine
end

