-- ==== Sys2Proof/Machine/Access.lean ====
section
/-!
DEFINITION. Target-side accesses (R20 to R26, R44 to R46, R71, R593, R656): where an address leads, what a register
write does by the access type of each field and by the rule of its register, what a read returns, and the
rows of accesses that are served otherwise.
-/

namespace Sys2Proof.Machine

open Sys2Proof

/-! ### Writes by access type (R20, R22) -/

/-- The value that a write leaves in the RW and W1C fields of a register; others keep theirs. -/
def mergeWrite (rows : List RegRow) (off : Nat) (old v : Word) : Word :=
  match findRow rows off with
  | none => old
  | some r =>
    let rw := BitVec.ofNat 32 r.rw
    (old &&& ~~~rw ||| v &&& rw) &&& ~~~(v &&& BitVec.ofNat 32 r.w1c)

/-- A write without a rule of its own. -/
def Cx.plain (cx : Cx) (off : Nat) (v : Word) : Cx := cx.put off (mergeWrite chRows off (cx.get off) v)

def Headland.plain (h : Headland) (off : Nat) (v : Word) : Headland :=
  h.put off (mergeWrite hlRows off (h.get off) v)

/-- A write that is accepted under a condition; otherwise it is discarded with CONFIG, when it would change a field
(R401, R656). -/
def Cx.guarded (cx : Cx) (ok : Bool) (off : Nat) (v : Word) : Cx :=
  if mergeWrite chRows off (cx.get off) v = cx.get off then cx
  else if ok then cx.plain off v
  else cx.configEvent off

/-- Registers written only in Disabled may be written, also in a handover target before RESUME (R536).
(DEDUCED, log entry 16) -/
def Cx.disabledOpen (cx : Cx) : Bool :=
  cx.mode == ModeCode.disabled || (cx.mode == ModeCode.handover && cx.hoRole == 2 && !cx.resuming)

/-- The W1C bits of a register (R67). -/
def Cx.clearOnly (cx : Cx) (off : Nat) (v : Word) : Cx :=
  match findRow chRows off with
  | none => cx
  | some r => cx.put off (cx.get off &&& ~~~(v &&& BitVec.ofNat 32 r.w1c))

/-! ### Registers of the channel window with a rule of their own -/

/-- Slot of a key selection, extractor, tree selection, root or tag register (R231, R259, R310). -/
def slotOfReg (off : Nat) : Option Nat :=
  if 0x3020 ≤ off ∧ off < 0x3060 then some ((off - 0x3020) / 8 % 4)
  else if 0x3100 ≤ off ∧ off < 0x3180 then some ((off - 0x3100) / 32)
  else if 0x3220 ≤ off ∧ off < 0x3260 ∧ off % 16 = 0 then some ((off - 0x3220) / 16)
  else if 0x3400 ≤ off ∧ off < 0x3C00 then some ((off - 0x3400) / 512)
  else none

/-- A write of a register of slot `g`. -/
def Cx.slotReg (cx : Cx) (g off : Nat) (v : Word) : Cx := cx.guarded (cx.slotOpen g) off v

/-- A write of CH_SHEAF_CTL (R291, R292). -/
def Cx.sheafCtl (cx : Cx) (v : Word) : Cx :=
  let g := getF v F.CH_SHEAF_CTL_SLOT
  let c := getF v F.CH_SHEAF_CTL_CMD
  if c = 1 then cx.sheafBuild g
  else if c = 2 then cx.sheafAbandon g
  else if c = 3 then cx.sheafDisarm g
  else if c = 4 then cx.sheafCommit g
  else if c = 5 then cx.sheafRelease g
  else cx.sheafCmd g false fun cx => cx

/-- A write of CH_GR_GLEAN (R328, R329). -/
def Cx.gleanCtl (cx : Cx) (v : Word) : Cx :=
  if getB v F.CH_GR_GLEAN_TO_BITMAP then cx.toBitmap else if getB v F.CH_GR_GLEAN_GO then cx.gleanGo else cx

/-- A write of CH_IND: both entries change (R286). -/
def Cx.indWrite (cx : Cx) (n : Nat) (v : Word) : Cx :=
  { cx with ch := { cx.ch with ctxm := Sparse.putLe cx.ch.ctxm (0x14E000 + 4 * n) 4 v.toNat } }

/-- A write of CH_FRAG_CFG; one that clears EN ends lookups (R248). -/
def Cx.fragCfg (cx : Cx) (v : Word) : Cx :=
  let was := cx.flg Reg.CH_FRAG_CFG F.CH_FRAG_CFG_EN
  let cx := cx.plain Reg.CH_FRAG_CFG v
  if was && !getB v F.CH_FRAG_CFG_EN then cx.fragDisable else cx

/-- A write of CH_CLS_CFG (R283). -/
def Cx.clsCfg (cx : Cx) (v : Word) : Cx :=
  let cx := cx.plain Reg.CH_CLS_CFG v
  if getB v F.CH_CLS_CFG_TKEY_COMMIT then cx.tkeyCommit else cx

/-- A write of CH_TXQ_MAP: SLOT may not give the new slot a ninth enabled member (R376). (DEDUCED, log entry 18) -/
def Cx.txMap (cx : Cx) (q : Nat) (v : Word) : Cx :=
  let a := Reg.CH_TXQ_MAP q
  let slot := getF v F.CH_TXQ_MAP_SLOT
  let ninth := cx.qEn true q && slot != cx.fld a F.CH_TXQ_MAP_SLOT && decide (8 ≤ (cx.slotMembers slot).length)
  let cx := cx.setf a F.CH_TXQ_MAP_PORT (getF v F.CH_TXQ_MAP_PORT)
  if ninth then cx.configEvent a else cx.setf a F.CH_TXQ_MAP_SLOT slot

/-- A write inside a queue's configuration entry (R376). -/
def Cx.queueReg (cx : Cx) (tx : Bool) (q r off : Nat) (v : Word) : Cx :=
  if r = 0 then cx.qCtlWrite tx q v
  else if r ≤ 0xC then cx.guarded (!cx.qEn tx q && cx.qIdle tx q) off v
  else if tx ∧ r = 0x18 then cx.txMap q v
  else cx.plain off v

/-- A write inside a completion ring's configuration entry (R392, R400). -/
def Cx.cringReg (cx : Cx) (k r off : Nat) (v : Word) : Cx :=
  if r = 0 then cx.crCtlWrite k v
  else if r ≤ 0xC then cx.guarded (!cx.crEn k && cx.crIdle k) off v
  else if r = 0x18 then cx.cringArm k v
  else cx.plain off v

/-- A write of CH_DRILL_CMD (R447). -/
def Cx.drillCmd (cx : Cx) (v : Word) : Cx :=
  let e := getF v F.CH_DRILL_CMD_ENTRY
  let c := getF v F.CH_DRILL_CMD_CMD
  if 64 ≤ e then cx
  else if c = 1 then cx.drillEdit e fun cx => cx.drillWrite e
  else if c = 2 then cx.drillRead e
  else if c = 3 then cx.drillEdit e fun cx => cx.drillDisarm e
  else cx

/-- Registers below CH+0x6000. -/
def Cx.writeLow (cx : Cx) (off : Nat) (v : Word) : Cx :=
  if off = Reg.CH_MODE_CTL then cx.modeCtl v
  else if off = Reg.CH_DS_CFG ∨ (Reg.CH_PARSE_CFG ≤ off ∧ off ≤ Reg.CH_PARSE_UDP) then cx.guarded cx.disabledOpen off v
  else if off = Reg.CH_FRAG_CFG then cx.fragCfg v
  else if off = Reg.CH_CLS_CFG then cx.clsCfg v
  else if off = Reg.CH_SHEAF_CTL then cx.sheafCtl v
  else if off = Reg.CH_GR_GLEAN then cx.gleanCtl v
  else if Reg.CH_IND 0 ≤ off ∧ off < Reg.CH_IND 256 then cx.indWrite ((off - Reg.CH_IND 0) / 4) v
  else match slotOfReg off with
    | some g => cx.slotReg g off v
    | none => cx.plain off v

/-- Registers of the queues and completion rings, and the doorbell page. -/
def Cx.writeRings (cx : Cx) (off : Nat) (v : Word) : Cx :=
  if off < 0x8000 then cx.queueReg false ((off - 0x6000) / 32) (off % 32) off v
  else if off < 0xA000 then cx.queueReg true ((off - 0x8000) / 32) (off % 32) off v
  else if off < 0xA800 then cx.cringReg ((off - 0xA000) / 32) (off % 32) off v
  else if off = Reg.CH_DB_BASE_LO then cx.dbBase false v
  else if off = Reg.CH_DB_BASE_HI then cx.dbBase true v
  else if off = Reg.CH_DB_KICK then (cx.inc Cnt.CH_CNT_RING_KICKS).trigger (getF v F.CH_DB_KICK_LINE)
  else cx.plain off v

/-- Registers from CH+0xB000 on. -/
def Cx.writeHigh (cx : Cx) (off : Nat) (v : Word) : Cx :=
  if off = Reg.CH_TU_CTL then cx.tuCtl (getB v F.CH_TU_CTL_EN)
  else if off = Reg.CH_TU_INTEG then cx.tuInteg v
  else if off = Reg.CH_TSQ_POP then
    (if getB v F.CH_TSQ_POP_GO then { cx with ch := { cx.ch with tsq := cx.ch.tsq.tail } } else cx)
  else if off = Reg.CH_PWR_CTL then cx.pwrCtl v
  else if off = Reg.CH_PAD_RELEASE then (if getB v F.CH_PAD_RELEASE_GO then cx.padRelease else cx)
  else if off = Reg.CH_LANE then cx.guarded cx.disabledOpen off v
  else if off = Reg.CH_DRILL_CMD then cx.drillCmd v
  else if off = Reg.CH_PORT_CFG then cx.fpCfg v
  else cx.plain off v

/-- A register write that reaches the channel, in a mode other than Halted. (DESIGN CHOICE, log entry 14) -/
def Cx.regWrite (cx : Cx) (off : Nat) (v : Word) : Cx :=
  if off < 0x6000 then cx.writeLow off v
  else if off < 0xB000 then cx.writeRings off v
  else cx.writeHigh off v

/-- The area belongs to the channel core island (R45). -/
def coreArea (off : Nat) : Bool := !(decide (0xC000 ≤ off) && decide (off < 0xD000))

/-- A register of the wake filter, which is written in every mode (R478). (DEDUCED, log entry 135) -/
def wakeReg (off : Nat) : Bool :=
  off == Reg.CH_WAKE_CFG || (decide (Reg.CH_WAKE_PORT 0 ≤ off) && decide (off < Reg.CH_WAKE_PORT 16)) ||
    (decide (Reg.CH_WAKE_MASK 0 0 ≤ off) && decide (off < Reg.CH_WAKE_MASK 16 0))

/-- A register write that reaches a channel in Halted (R67, R478). (DEDUCED, log entry 135) -/
def Cx.haltedWrite (cx : Cx) (off : Nat) (v : Word) : Cx :=
  if wakeReg off then cx.plain off v else cx.clearOnly off v

/-- A 32-bit write that reaches a channel. -/
def State.chReg (s : State) (c : ChanId) (off : Nat) (v : Word) : State :=
  if s.hl.resetRuns c then s
  else if off = Reg.CH_RESET then s.chReset c v
  else
    let s := if Reg.CH_DRILL_GATE 0 ≤ off ∧ off < Reg.CH_DRILL_GATE 8 then s.drillFirst c else s
    s.modChan c fun cx => if cx.mode = ModeCode.halted then cx.haltedWrite off v else cx.regWrite off v

/-- An access to a channel area is stopped by its stopped clock (R46). (DEDUCED, log entry 10) -/
def State.chStopped (s : State) (c : ChanId) (off : Nat) : Bool := s.chans[c].coreStopped && coreArea off

/-- A write access to a channel window. The lower address of a pair acts first (R25). -/
def State.chWrite (s : State) (c : ChanId) (off : Nat) (wide : Bool) (v : DWord) : State :=
  if s.hl.resetRuns c then s
  else if s.chStopped c off then s.modChan c fun cx => cx.inc Cnt.CH_CNT_PWR_STOPPED_ACCESS
  else
    let s := s.chReg c off (BitVec.ofNat 32 v.toNat)
    if wide then s.chReg c (off + 4) (BitVec.ofNat 32 (v.toNat / 2 ^ 32)) else s

/-! ### Registers of the Headland window with a rule of their own -/

/-- A write of HL_DVFS_REQ (R494). -/
def State.dvfsCtl (s : State) (v : Word) : State :=
  if getB v F.HL_DVFS_REQ_GO then
    s.dvfsRequest (getB v F.HL_DVFS_REQ_ISLAND) (getB v F.HL_DVFS_REQ_KIND) (getF v F.HL_DVFS_REQ_INDEX)
  else s

/-- A write of HL_STU_ADJ_CTL: when both bits are 1 only SET acts (R424). -/
def Headland.adjCtl (h : Headland) (v : Word) : Headland :=
  if getB v F.HL_STU_ADJ_CTL_SET then h.stuSet else if getB v F.HL_STU_ADJ_CTL_ADJ then h.stuAdj else h

/-- A write of HL_DRILL_CMD (R447). -/
def State.drillCmd (s : State) (v : Word) : State :=
  let e := getF v F.HL_DRILL_CMD_ENTRY
  let c := getF v F.HL_DRILL_CMD_CMD
  if c = 1 then s.drillEdit e fun h => h.drillWrite e
  else if c = 2 then s.mapHl fun h => h.drillRead e
  else if c = 3 then s.drillEdit e fun h => h.drillDisarm e
  else s

/-- A write inside a mover set's registers (R502, R503, R520). -/
def Headland.moverReg (h : Headland) (n r off : Nat) (v : Word) : Headland :=
  let w := mergeWrite hlRows off (h.get off) v
  if r ≤ 0x14 ∨ r = 0x1C ∨ r = 0x20 then h.mvShadow n off w
  else if r = 0x18 then (if getB v F.MV_CTL_GO then h.mvGo n v else h.mvShadow n off w)
  else if r = 0x34 then
    let h := if getB v F.MV_CMD_CLEAR then h.mvClear n else h
    if getB v F.MV_CMD_ABORT then h.mvAbort n else h
  else h.plain off v

/-- A write inside an event ring's registers (R392, R405). (DEDUCED, log entry 16) -/
def Headland.evrReg (h : Headland) (n r off : Nat) (v : Word) : Headland :=
  let a := Reg.HL_EVR_CTL n
  if r = 0 then h.evrCtlWrite n v
  else if r ≤ 0xC then (if !h.evrEn n && h.flg a F.HL_EVR_CTL_IDLE then h.plain off v else h)
  else if r = 0x14 then h.evrCons n v
  else h.plain off v

/-- The mailbox ring whose BASE or START lies at an offset: both are accepted only while its EN is 0.
(DEDUCED, log entry 17) -/
def mbPlaceOf (off : Nat) : Option Nat :=
  if off = Reg.HL_MB_CMD_BASE_LO ∨ off = Reg.HL_MB_CMD_BASE_HI ∨ off = Reg.HL_MB_CMD_START then some 0
  else if off = Reg.HL_MB_RSP_BASE_LO ∨ off = Reg.HL_MB_RSP_BASE_HI ∨ off = Reg.HL_MB_RSP_START then some 1
  else if off = Reg.HL_MB_COPY_BASE_LO ∨ off = Reg.HL_MB_COPY_BASE_HI ∨ off = Reg.HL_MB_COPY_START then some 2
  else none

/-- A write of a mailbox ring's BASE or START, and of any other plain register. (DEDUCED, log entry 17) -/
def Headland.mbPlace (h : Headland) (off : Nat) (v : Word) : Headland :=
  match mbPlaceOf off with
  | some r => if h.flg (mbCtl r) F.HL_MB_CMD_CTL_EN then h else h.plain off v
  | none => h.plain off v

/-- A write of a mailbox register (R555, R658, and the words before R658). (DEDUCED, log entry 17) -/
def Headland.mailReg (h : Headland) (off : Nat) (v : Word) : Headland :=
  if off = Reg.HL_MB_CMD_CTL then h.mbRingCtl 0 v
  else if off = Reg.HL_MB_RSP_CTL then h.mbRingCtl 1 v
  else if off = Reg.HL_MB_COPY_CTL then h.mbRingCtl 2 v
  else if off = Reg.HL_MB_CMD_TAIL then h.cmdTail v
  else if off = Reg.HL_MB_RSP_CONS then h.mbCons false v
  else if off = Reg.HL_MB_COPY_CONS then h.mbCons true v
  else if off = Reg.HL_LOG_CONS then (h.put Reg.HL_LOG_CONS v).setMb { h.mb with logHit := false }
  else h.mbPlace off v

/-- Registers of the Headland alone. (DESIGN CHOICE, log entry 14) -/
def Headland.regWrite (h : Headland) (off : Nat) (v : Word) : Headland :=
  if off = Reg.HL_RST_DEVICE then h.rstDevice v
  else if off = Reg.HL_STU_INTEG then h.stuInteg v
  else if off = Reg.HL_STU_SNAP_CTL then (if getB v F.HL_STU_SNAP_CTL_GO then h.stuSnapshot else h)
  else if off = Reg.HL_STU_ADJ_CTL then h.adjCtl v
  else if Reg.HL_DRILL_CAP_CTL 0 ≤ off ∧ off < Reg.HL_DRILL_CAP_CTL 8 ∧ off % 16 = 0 then
    h.capCtl ((off - Reg.HL_DRILL_CAP_CTL 0) / 16) v
  else if 0x5000 ≤ off ∧ off < 0x5400 then h.moverReg ((off - 0x5000) / 128) (off % 128) off v
  else if 0x6000 ≤ off ∧ off < 0x6200 then h.evrReg ((off - 0x6000) / 32) (off % 32) off v
  else if off = Reg.HL_VEC_MASK_LO then h.vecMask false v
  else if off = Reg.HL_VEC_MASK_HI then h.vecMask true v
  else if 0x9000 ≤ off ∧ off < 0xA000 then h.mailReg off v
  else if off = Reg.HL_IW_TREE_SEL then h.iwSelect true v
  else if off = Reg.HL_IW_CTX_SEL then h.iwSelect false v
  else h.plain off v

/-- A 32-bit write to the Headland window. -/
def State.hlReg (s : State) (off : Nat) (v : Word) : State :=
  if off = Reg.HL_RST_CHAN_LO then s.rstChan (v.toNat % 2 ^ 17)
  else if off = Reg.HL_PWR_BUDGET then s.budgetWrite v
  else if off = Reg.HL_DVFS_REQ then s.dvfsCtl v
  else if off = Reg.HL_STU_CTL then s.stuSourceChange v
  else if off = Reg.HL_DRILL_CMD then s.drillCmd v
  else s.mapHl fun h => h.regWrite off v

/-- A write access to the Headland window. -/
def State.hlWriteAcc (s : State) (off : Nat) (wide : Bool) (v : DWord) : State :=
  let s := s.hlReg off (BitVec.ofNat 32 v.toNat)
  if wide then s.hlReg (off + 4) (BitVec.ofNat 32 (v.toNat / 2 ^ 32)) else s

/-! ### Where an address leads (R25, R627) -/

/-- What lies at an offset of the aperture. -/
inductive Target where
  | headland (off : Nat)
  | window (tree : Bool) (off : Nat)
  | channel (c : ChanId) (off : Nat)
  | reserved
  deriving DecidableEq, Repr

def targetOf (addr : Nat) : Target :=
  if addr < 0x20000 then .headland addr
  else if addr < 0x30000 then .window true (addr - 0x20000)
  else if addr < 0x40000 then .window false (addr - 0x30000)
  else if h : (addr - 0x40000) / 0x10000 < 17 then .channel ⟨(addr - 0x40000) / 0x10000, h⟩ (addr % 0x10000)
  else .reserved

/-- Aligned to the size of the access (R593). -/
def aligned (addr : Nat) (wide : Bool) : Bool := addr % (if wide then 8 else 4) == 0

/-- The access of a window, by the number of its word. -/
def winAccess (off : Nat) (wide : Bool) (write : Option DWord) : WinAcc :=
  let i32 : Fin 16384 := ⟨off / 4 % 16384, Nat.mod_lt _ (by decide)⟩
  let i64 : Fin 8192 := ⟨off / 8 % 8192, Nat.mod_lt _ (by decide)⟩
  match write, wide with
  | none, false => .read32 i32
  | none, true => .read64 i64
  | some v, false => .write32 i32 (BitVec.ofNat 32 v.toNat)
  | some v, true => .write64 i64 v

/-- An aligned write. (DEDUCED, log entry 10) -/
def State.targetWrite (s : State) (addr : Nat) (wide : Bool) (v : DWord) : State :=
  match targetOf addr with
  | .headland off => s.hlWriteAcc off wide v
  | .window tree off => s.windowAccess tree (winAccess off wide (some v)) .none
  | .channel c off => s.chWrite c off wide v
  | .reserved => s

/-! ### Reads (R25, R26) -/

/-- Runs of 64-bit counters: offset of the first, and how many. -/
def chCounters : List (Nat × Nat) :=
  [(0xC100, 8), (0xC140, 9), (0xE000, 30), (0xE100, 21), (0xE200, 21), (0xE300, 21), (0xE400, 7), (0xE500, 10),
    (0xE600, 15), (0xE700, 5), (0xE800, 6), (0xE900, 3), (0xEA00, 13), (0xEB00, 3)]
def hlCounters : List (Nat × Nat) :=
  [(0x1F00, 2), (0x2F00, 3), (0x3100, 6), (0x4F00, 5), (0x5F00, 4), (0x6600, 6), (0x7F00, 6), (0x8F00, 6),
    (0x9F00, 9), (0x10F00, 1)]

/-- The low word of the counter at whose low or high word the offset stands. -/
def counterAt (l : List (Nat × Nat)) (off : Nat) : Option Nat :=
  if l.any fun r => decide (r.1 ≤ off) && decide (off < r.1 + 8 * r.2) then some (off / 8 * 8) else none

/-- Pairs that a rule says are read under R26, by their low words (R93, R308, R426, R442, R462).
(DEDUCED, log entry 11) -/
def chPairs : List Nat :=
  [Reg.CH_DS_SFC_LO, Reg.CH_SHEAF_ARM_T_LO, Reg.CH_SHEAF_LAST_T_LO, Reg.CH_TU_PHASE_LO, Reg.CH_TSQ_TS_LO]
/-- DEDUCED, log entry 11. -/
def hlPairs : List Nat := [Reg.HL_DRILL_DELTA_LO]

def pairAt (l : List Nat) (off : Nat) : Option Nat :=
  if l.contains (off / 8 * 8) then some (off / 8 * 8) else none

/-- What a 32-bit read of a channel register returns, apart from latches. -/
def Cx.regRead (cx : Cx) (off : Nat) : Word :=
  if off = Reg.CH_TSQ_STATUS then cx.ch.tsqStatus
  else if off = Reg.CH_TSQ_HEAD then cx.ch.tsqHead
  else if off = Reg.CH_TSQ_TS_LO then BitVec.ofNat 32 cx.ch.tsqTs.toNat
  else if off = Reg.CH_TSQ_TS_HI then BitVec.ofNat 32 (cx.ch.tsqTs.toNat / 2 ^ 32)
  else if off = Reg.CH_CPL_STATUS then cx.cplStatus
  else if off = Reg.CH_GR_MIGRATE ∧ cx.fld off F.CH_GR_MIGRATE_PHASE ≠ 0 then
    setF (cx.get off) F.CH_GR_MIGRATE_ROW (Config.copyRow cx.id.val cx.hl.stu.tick).toNat
  else if off = Reg.CH_FB_MIGRATE ∧ cx.fld off F.CH_FB_MIGRATE_PHASE ≠ 0 then
    let rows := if cx.fld off F.CH_FB_MIGRATE_STORE = 0 then 8192 else 2048
    setF (cx.get off) F.CH_FB_MIGRATE_ROW
      ((Config.fbCopyRow cx.id.val (cx.hl.stu.tick - cx.ch.pwr.slept)).toNat % rows)
  else if off = Reg.CH_PORT_STATUS then setF (cx.get off) F.CH_PORT_STATUS_FPI_READY (b2n cx.fpiReady)
  else if Reg.CH_IND 0 ≤ off ∧ off < Reg.CH_IND 256 then
    BitVec.ofNat 32 (Sparse.le cx.ch.ctxm (0x14E000 + (off - Reg.CH_IND 0) / 4 * 4) 4)
  else if 0x6000 ≤ off ∧ off < 0x8000 ∧ off % 32 = 0x18 then
    let q := cx.rxq ((off - 0x6000) / 32)
    BitVec.ofNat 32 (min 16 q.bufs.length + min 65535 q.frames.length * 65536)
  else cx.get off

/-- What a 32-bit read of a Headland register returns, apart from latches. -/
def Headland.regRead (h : Headland) (off : Nat) : Word :=
  if off = Reg.HL_DRILL_DELTA_LO then BitVec.ofNat 32 (wrapInt 64 h.drillDelta)
  else if off = Reg.HL_DRILL_DELTA_HI then BitVec.ofNat 32 (wrapInt 64 h.drillDelta / 2 ^ 32)
  else h.get off

/-- The live 64-bit value of a counter or pair of a channel. (DEDUCED, log entry 11) -/
def Cx.live64 (cx : Cx) (lo : Nat) : DWord :=
  if (counterAt chCounters lo).isSome then cx.ch.cnt lo
  else BitVec.ofNat 64 ((cx.regRead lo).toNat + (cx.regRead (lo + 4)).toNat * 2 ^ 32)

/-- DEDUCED, log entry 11. -/
def Headland.live64 (h : Headland) (lo : Nat) : DWord :=
  if (counterAt hlCounters lo).isSome then h.cnt lo
  else BitVec.ofNat 64 ((h.regRead lo).toNat + (h.regRead (lo + 4)).toNat * 2 ^ 32)

/-- Low word of the counter or latched pair at an offset. -/
def chLow (off : Nat) : Option Nat := (counterAt chCounters off).or (pairAt chPairs off)
def hlLow (off : Nat) : Option Nat := (counterAt hlCounters off).or (pairAt hlPairs off)

/-- A 32-bit read of a channel window: its value, and the latch it leaves. (DEDUCED, log entry 11) -/
def Cx.read32 (cx : Cx) (off : Nat) : Cx × Word :=
  match chLow off with
  | none => (cx, cx.regRead off)
  | some lo =>
    let hi := BitVec.ofNat 32 ((cx.live64 lo).toNat / 2 ^ 32)
    if off = lo then
      ({ cx with ch := { cx.ch with latch := Sparse.set noLatch cx.ch.latch lo (some hi) } },
        BitVec.ofNat 32 (cx.live64 lo).toNat)
    else (cx, (Sparse.get noLatch cx.ch.latch lo).getD hi)

/-- DEDUCED, log entry 11. -/
def Headland.read32 (h : Headland) (off : Nat) : Headland × Word :=
  match hlLow off with
  | none => (h, h.regRead off)
  | some lo =>
    let hi := BitVec.ofNat 32 ((h.live64 lo).toNat / 2 ^ 32)
    if off = lo then
      ({ h with latch := Sparse.set noLatch h.latch lo (some hi) }, BitVec.ofNat 32 (h.live64 lo).toNat)
    else (h, (Sparse.get noLatch h.latch lo).getD hi)

/-- A read access to a channel window, answered. A 64-bit read shows one moment and latches nothing. The area of the
always-on island can be read at any time, also in a channel reset (R45). -/
def State.chRead (s : State) (c : ChanId) (off : Nat) (wide : Bool) : State :=
  if s.hl.resetRuns c && coreArea off then s
  else if s.chStopped c off then
    s.modChan c fun cx => (cx.inc Cnt.CH_CNT_PWR_STOPPED_ACCESS).onHl fun h => h.answer 0 false
  else s.modChan c fun cx =>
    if wide then cx.onHl fun h => h.answer (cx.live64 off).toNat false
    else
      let r := cx.read32 off
      r.1.onHl fun h => h.answer r.2.toNat false

def Headland.readAcc (h : Headland) (off : Nat) (wide : Bool) : Headland :=
  if wide then h.answer (h.live64 off).toNat false
  else
    let r := h.read32 off
    r.1.answer r.2.toNat false

/-- An aligned read. (DEDUCED, log entry 10) -/
def State.targetRead (s : State) (addr : Nat) (wide : Bool) : State :=
  match targetOf addr with
  | .headland off => s.mapHl fun h => h.readAcc off wide
  | .window tree off => s.windowAccess tree (winAccess off wide none) .none
  | .channel c off => s.chRead c off wide
  | .reserved => s.mapHl fun h => h.answer 0 false

/-! ### Rows -/

/-- An access of any alignment; one that is not aligned to its size is in error (R593). -/
def State.targetAccess (s : State) (addr : Nat) (wide : Bool) (write : Option DWord) : State :=
  if aligned addr wide then
    match write with
    | some v => s.targetWrite addr wide v
    | none => s.targetRead addr wide
  else (s.mapHl fun h => h.inc Cnt.HL_CNT_HP_TGT_BAD).answerErr

/-- REGISTER_WRITE: a write to the aperture; its data lie in the low bits when it is a 32-bit write.
(DESIGN CHOICE, log entry 14) -/
def execRegisterWrite (addr : BitVec 21) (wide : Bool) (v : DWord) (s : State) : Out :=
  s.access fun s => s.targetAccess addr.toNat wide (some v)

/-- COUNTER_LOW_READ: a 32-bit read. -/
def execCounterLowRead (addr : BitVec 21) (s : State) : Out :=
  s.access fun s => s.targetAccess addr.toNat false none

/-- STOPPED_ACCESS: an access to a channel's window while its core clock is stopped. (DEDUCED, log entry 10) -/
def execStoppedAccess (c : ChanId) (off : BitVec 16) (wide : Bool) (write : Option DWord) (s : State) : Out :=
  s.access fun s => s.targetAccess (0x40000 + 0x10000 * c.val + off.toNat) wide write

/-- ACCESS_TIMEOUT: an access to a channel island is not served within 4 µs (R71, R549, R593).
(DEDUCED, log entry 13) -/
def State.accessTimeout (s : State) (c : ChanId) (wide read : Bool) : State :=
  let beat := s.chans[c].fm.beat
  s.mapHl fun h =>
    let h := h.raise Ev.accessTimeout c.val
    let h := if h.flg Reg.HL_FM_WEDGE_CFG F.HL_FM_WEDGE_CFG_EN && h.fwUp then h.markWedged c.val beat else h
    h.answer (if read then (if wide then 2 ^ 64 - 1 else 2 ^ 32 - 1) else 0) true

/-- DEDUCED, log entry 13. -/
def execAccessTimeout (c : ChanId) (wide read : Bool) (s : State) : Out := s.access fun s => s.accessTimeout c wide read

/-- UNALIGNED_TARGET_ACCESS. -/
def execUnalignedTargetAccess (addr : BitVec 21) (wide : Bool) (write : Option DWord) (s : State) : Out :=
  s.access fun s => s.targetAccess addr.toNat wide write

/-- DS_CFG_WRITE (R83). -/
def execDsCfgWrite (c : ChanId) (v : Word) (s : State) : Out :=
  s.coreWrite c fun cx => cx.guarded cx.disabledOpen Reg.CH_DS_CFG v

/-- PARSE_CFG_WRITE: CH_PARSE_CFG, CH_PARSE_TPID and CH_PARSE_UDP (R232). -/
def execParseCfgWrite (c : ChanId) (i : Fin 3) (v : Word) (s : State) : Out :=
  s.coreWrite c fun cx => cx.guarded cx.disabledOpen (Reg.CH_PARSE_CFG + 4 * i.val) v

/-- A key selection or extractor register. -/
def keyProfileReg (off : Nat) : Bool :=
  (decide (0x3020 ≤ off) && decide (off < 0x3040)) || (decide (0x3400 ≤ off) && decide (off < 0x3C00))

/-- A tree selection or root register. -/
def treeSelReg (off : Nat) : Bool :=
  (decide (0x3040 ≤ off) && decide (off < 0x3060)) || (decide (0x3100 ≤ off) && decide (off < 0x3180))

/-- DEDUCED, log entry 16. -/
def Cx.slotWrite (cx : Cx) (off : Nat) (v : Word) : Cx :=
  match slotOfReg off with
  | some g => cx.slotReg g off v
  | none => cx

/-- KEY_PROFILE_WRITE (R231). -/
def execKeyProfileWrite (c : ChanId) (off : BitVec 16) (v : Word) (s : State) : Out :=
  s.coreWrite c fun cx => if keyProfileReg off.toNat then cx.slotWrite off.toNat v else cx

/-- TREE_SEL_WRITE (R259). -/
def execTreeSelWrite (c : ChanId) (off : BitVec 16) (v : Word) (s : State) : Out :=
  s.coreWrite c fun cx => if treeSelReg off.toNat then cx.slotWrite off.toNat v else cx

end Sys2Proof.Machine
end

