-- ==== Sys2Proof/Machine/Dispatch.lean ====
section
/-!
DEFINITION. The meaning of each command, one arm per row of the opcode table.
-/

namespace Sys2Proof.Machine

open Sys2Proof

def exec (i : Instr) (s : State) : Host.Outcome State Fault Refusal :=
  match i with
  | .registerWrite addr wide v => Sys2Proof.Machine.execRegisterWrite addr wide v s
  | .counterLowRead addr => Sys2Proof.Machine.execCounterLowRead addr s
  | .stoppedAccess c off wide write => Sys2Proof.Machine.execStoppedAccess c off wide write s
  | .accessTimeout c wide read => Sys2Proof.Machine.execAccessTimeout c wide read s
  | .unalignedTargetAccess addr wide write => Sys2Proof.Machine.execUnalignedTargetAccess addr wide write s
  | .enable c fastOk => Sys2Proof.Machine.execEnable c fastOk s
  | .orderlyDisable c fastOk => Sys2Proof.Machine.execOrderlyDisable c fastOk s
  | .disableComplete c => Sys2Proof.Machine.execDisableComplete c s
  | .chResetGo c v => Sys2Proof.Machine.execChResetGo c v s
  | .hlRstChanReq mask => Sys2Proof.Machine.execHlRstChanReq mask s
  | .channelResetDone c => Sys2Proof.Machine.execChannelResetDone c s
  | .wedgeDetect c => Sys2Proof.Machine.execWedgeDetect c s
  | .hlRstDeviceGo v => Sys2Proof.Machine.execHlRstDeviceGo v s
  | .rstNAssert => Sys2Proof.Machine.execRstNAssert s
  | .deviceResetDone => Sys2Proof.Machine.execDeviceResetDone s
  | .fwBoot dev => Sys2Proof.Machine.execFwBoot dev s
  | .dsCfgWrite c v => Sys2Proof.Machine.execDsCfgWrite c v s
  | .lineFrameStart c x => Sys2Proof.Machine.execLineFrameStart c x s
  | .framerSyncLoss w => Sys2Proof.Machine.execFramerSyncLoss w s
  | .envelopeRx c hdr hec counter payload ecc => Sys2Proof.Machine.execEnvelopeRx c hdr hec counter payload ecc s
  | .cipherReturn c seedA seedB plain err late ecc => Sys2Proof.Machine.execCipherReturn c seedA seedB plain err late ecc s
  | .reasmTimeout c ctx ecc => Sys2Proof.Machine.execReasmTimeout c ctx ecc s
  | .pauseTimerExpiry c n => Sys2Proof.Machine.execPauseTimerExpiry c n s
  | .dsMgmtMessage c ok acts replies => Sys2Proof.Machine.execDsMgmtMessage c ok acts replies s
  | .to1Expiry c => Sys2Proof.Machine.execTo1Expiry c s
  | .to2Expiry c => Sys2Proof.Machine.execTo2Expiry c s
  | .fastReentryAccept c => Sys2Proof.Machine.execFastReentryAccept c s
  | .fastReentryFail c => Sys2Proof.Machine.execFastReentryFail c s
  | .identityPersist c ok => Sys2Proof.Machine.execIdentityPersist c ok s
  | .serialSet m serial regId => Sys2Proof.Machine.execSerialSet m serial regId s
  | .identityRead m addr => Sys2Proof.Machine.execIdentityRead m addr s
  | .identityClear m => Sys2Proof.Machine.execIdentityClear m s
  | .portRegister m port ctx => Sys2Proof.Machine.execPortRegister m port ctx s
  | .portRelease m port => Sys2Proof.Machine.execPortRelease m port s
  | .fastPolicy m v => Sys2Proof.Machine.execFastPolicy m v s
  | .burstDue c rets ecc => Sys2Proof.Machine.execBurstDue c rets ecc s
  | .burstStart c wait fault => Sys2Proof.Machine.execBurstStart c wait fault s
  | .txEnOn c rogue => Sys2Proof.Machine.execTxEnOn c rogue s
  | .txEnOff c => Sys2Proof.Machine.execTxEnOff c s
  | .frameSent c => Sys2Proof.Machine.execFrameSent c s
  | .parseCfgWrite c n v => Sys2Proof.Machine.execParseCfgWrite c n v s
  | .keyProfileWrite c off v => Sys2Proof.Machine.execKeyProfileWrite c off v s
  | .treeSelWrite c off v => Sys2Proof.Machine.execTreeSelWrite c off v s
  | .fragAgeOut c n => Sys2Proof.Machine.execFragAgeOut c n s
  | .fragTableDisable c => Sys2Proof.Machine.execFragTableDisable c s
  | .tkeyCommit c => Sys2Proof.Machine.execTkeyCommit c s
  | .build c g => Sys2Proof.Machine.execBuild c g s
  | .abandon c g => Sys2Proof.Machine.execAbandon c g s
  | .disarm c g => Sys2Proof.Machine.execDisarm c g s
  | .commit c g => Sys2Proof.Machine.execCommit c g s
  | .release c g => Sys2Proof.Machine.execRelease c g s
  | .rootCheckDone c => Sys2Proof.Machine.execRootCheckDone c s
  | .armedCommit c => Sys2Proof.Machine.execArmedCommit c s
  | .slotDrained c g => Sys2Proof.Machine.execSlotDrained c g s
  | .gleanGo c => Sys2Proof.Machine.execGleanGo c s
  | .toBitmap c => Sys2Proof.Machine.execToBitmap c s
  | .gleanDone c => Sys2Proof.Machine.execGleanDone c s
  | .bankMigrate m store bank => Sys2Proof.Machine.execBankMigrate m store bank s
  | .migrationSwitch c gran => Sys2Proof.Machine.execMigrationSwitch c gran s
  | .wearSample => Sys2Proof.Machine.execWearSample s
  | .dbBaseWrite c hi v => Sys2Proof.Machine.execDbBaseWrite c hi v s
  | .queueEnable c tx q v => Sys2Proof.Machine.execQueueEnable c tx q v s
  | .queueTakedown c tx q v => Sys2Proof.Machine.execQueueTakedown c tx q v s
  | .queueIdle c tx q => Sys2Proof.Machine.execQueueIdle c tx q s
  | .takedownGrantTimeout c q => Sys2Proof.Machine.execTakedownGrantTimeout c q s
  | .doorbellPoll c => Sys2Proof.Machine.execDoorbellPoll c s
  | .hpInvalidate line => Sys2Proof.Machine.execHpInvalidate line s
  | .dbKick c k => Sys2Proof.Machine.execDbKick c k s
  | .doorbellLineRead c k ts => Sys2Proof.Machine.execDoorbellLineRead c k ts s
  | .descriptorFetch c tx q idx slots => Sys2Proof.Machine.execDescriptorFetch c tx q idx slots s
  | .ownReread c tx q slot => Sys2Proof.Machine.execOwnReread c tx q slot s
  | .hostReadRetry c w code => Sys2Proof.Machine.execHostReadRetry c w code s
  | .txFrameStart c => Sys2Proof.Machine.execTxFrameStart c s
  | .txFrameStored c q bytes ecc => Sys2Proof.Machine.execTxFrameStored c q bytes ecc s
  | .txBufferReadError c q stored code => Sys2Proof.Machine.execTxBufferReadError c q stored code s
  | .rxWriteOut c q ecc => Sys2Proof.Machine.execRxWriteOut c q ecc s
  | .rxHoldExpiry c q => Sys2Proof.Machine.execRxHoldExpiry c q s
  | .cringEnable c r v => Sys2Proof.Machine.execCringEnable c r v s
  | .cringDisable c r v => Sys2Proof.Machine.execCringDisable c r v s
  | .cringArm c r t => Sys2Proof.Machine.execCringArm c r t s
  | .heldCompletionWrite c r => Sys2Proof.Machine.execHeldCompletionWrite c r s
  | .cplStallRelease c r ecc => Sys2Proof.Machine.execCplStallRelease c r ecc s
  | .eventRecordHead stream => Sys2Proof.Machine.execEventRecordHead stream s
  | .eventDeferredWrite n => Sys2Proof.Machine.execEventDeferredWrite n s
  | .evrDisable n v => Sys2Proof.Machine.execEvrDisable n v s
  | .evrConsWrite n t => Sys2Proof.Machine.execEvrConsWrite n t s
  | .evrHoldoffExpiry n => Sys2Proof.Machine.execEvrHoldoffExpiry n s
  | .vecUnmask hi v => Sys2Proof.Machine.execVecUnmask hi v s
  | .stuAdj => Sys2Proof.Machine.execStuAdj s
  | .stuSet => Sys2Proof.Machine.execStuSet s
  | .stuSnapshot => Sys2Proof.Machine.execStuSnapshot s
  | .stuSourceChange v => Sys2Proof.Machine.execStuSourceChange v s
  | .ppsInEdge => Sys2Proof.Machine.execPpsInEdge s
  | .ppsGapTimeout => Sys2Proof.Machine.execPpsGapTimeout s
  | .sourceInvalid src => Sys2Proof.Machine.execSourceInvalid src s
  | .ppsOutRise => Sys2Proof.Machine.execPpsOutRise s
  | .ppsOutFall => Sys2Proof.Machine.execPpsOutFall s
  | .todOutSend => Sys2Proof.Machine.execTodOutSend s
  | .todInMessage m inTime => Sys2Proof.Machine.execTodInMessage m inTime s
  | .tuMsgArm c sfc sec ns teqd => Sys2Proof.Machine.execTuMsgArm c sfc sec ns teqd s
  | .holdoverExpiry unit => Sys2Proof.Machine.execHoldoverExpiry unit s
  | .integWrite unit v => Sys2Proof.Machine.execIntegWrite unit v s
  | .tsqPop c => Sys2Proof.Machine.execTsqPop c s
  | .drillWrite d e => Sys2Proof.Machine.execDrillWrite d e s
  | .drillRead d e => Sys2Proof.Machine.execDrillRead d e s
  | .drillDisarm d e => Sys2Proof.Machine.execDrillDisarm d e s
  | .drillFire d e => Sys2Proof.Machine.execDrillFire d e s
  | .pulseEnd n => Sys2Proof.Machine.execPulseEnd n s
  | .captureArm n v => Sys2Proof.Machine.execCaptureArm n v s
  | .captureEdge n edge => Sys2Proof.Machine.execCaptureEdge n edge s
  | .captureTimeout n => Sys2Proof.Machine.execCaptureTimeout n s
  | .idleTimerExpiry c => Sys2Proof.Machine.execIdleTimerExpiry c s
  | .stopRequest c v => Sys2Proof.Machine.execStopRequest c v s
  | .stopEntry c => Sys2Proof.Machine.execStopEntry c s
  | .stopAbortDone c => Sys2Proof.Machine.execStopAbortDone c s
  | .stopEntered c => Sys2Proof.Machine.execStopEntered c s
  | .wakeRequest c w => Sys2Proof.Machine.execWakeRequest c w s
  | .stopTimerExpiry c => Sys2Proof.Machine.execStopTimerExpiry c s
  | .wakeComplete c flips errs => Sys2Proof.Machine.execWakeComplete c flips errs s
  | .brownOut c => Sys2Proof.Machine.execBrownOut c s
  | .padRelease c => Sys2Proof.Machine.execPadRelease c s
  | .dvfsFreqRequest mg n => Sys2Proof.Machine.execDvfsFreqRequest mg n s
  | .dvfsVoltRequest mg n => Sys2Proof.Machine.execDvfsVoltRequest mg n s
  | .dvfsFreqDone => Sys2Proof.Machine.execDvfsFreqDone s
  | .dvfsVoltDone => Sys2Proof.Machine.execDvfsVoltDone s
  | .budgetWrite v => Sys2Proof.Machine.execBudgetWrite v s
  | .budgetArbitrate => Sys2Proof.Machine.execBudgetArbitrate s
  | .moverGo n v => Sys2Proof.Machine.execMoverGo n v s
  | .moverStart n good host ecc => Sys2Proof.Machine.execMoverStart n good host ecc s
  | .moverRetry n code dst good host ecc => Sys2Proof.Machine.execMoverRetry n code dst good host ecc s
  | .moverDone n => Sys2Proof.Machine.execMoverDone n s
  | .moverClear n => Sys2Proof.Machine.execMoverClear n s
  | .moverAbort n => Sys2Proof.Machine.execMoverAbort n s
  | .windowSelectWrite tree v => Sys2Proof.Machine.execWindowSelectWrite tree v s
  | .windowAccess tree acc ecc => Sys2Proof.Machine.execWindowAccess tree acc ecc s
  | .handover m src tgt buffer hostCfg => Sys2Proof.Machine.execHandover m src tgt buffer hostCfg s
  | .handoverFreeze retired => Sys2Proof.Machine.execHandoverFreeze retired s
  | .handoverTransfer halts crcOk => Sys2Proof.Machine.execHandoverTransfer halts crcOk s
  | .handoverSwitch => Sys2Proof.Machine.execHandoverSwitch s
  | .handoverResumeDone => Sys2Proof.Machine.execHandoverResumeDone s
  | .handoverAbort m => Sys2Proof.Machine.execHandoverAbort m s
  | .configExport m buffer => Sys2Proof.Machine.execConfigExport m buffer s
  | .fallowDesignate m => Sys2Proof.Machine.execFallowDesignate m s
  | .fallowTest m => Sys2Proof.Machine.execFallowTest m s
  | .fallowTestDone bad staging => Sys2Proof.Machine.execFallowTestDone bad staging s
  | .mbCmdTail t => Sys2Proof.Machine.execMbCmdTail t s
  | .mbRingCtlWrite r v => Sys2Proof.Machine.execMbRingCtlWrite r v s
  | .mbCommandReread code => Sys2Proof.Machine.execMbCommandReread code s
  | .mgmtSend m len q data => Sys2Proof.Machine.execMgmtSend m len q data s
  | .fwStage m => Sys2Proof.Machine.execFwStage m s
  | .fwWrite m b => Sys2Proof.Machine.execFwWrite m b s
  | .fwWriteDone ok => Sys2Proof.Machine.execFwWriteDone ok s
  | .fwActivate m b => Sys2Proof.Machine.execFwActivate m b s
  | .fwReady => Sys2Proof.Machine.execFwReady s
  | .fwRevert => Sys2Proof.Machine.execFwRevert s
  | .fwAccept m ok => Sys2Proof.Machine.execFwAccept m ok s
  | .fwInfo m => Sys2Proof.Machine.execFwInfo m s
  | .copyDrain => Sys2Proof.Machine.execCopyDrain s
  | .keyItem c set two key => Sys2Proof.Machine.execKeyItem c set two key s
  | .sensorSample temp volt age => Sys2Proof.Machine.execSensorSample temp volt age s
  | .logRecord sev => Sys2Proof.Machine.execLogRecord sev s
  | .logConsWrite t => Sys2Proof.Machine.execLogConsWrite t s
  | .persistRetry ok => Sys2Proof.Machine.execPersistRetry ok s
  | .pmSecond c => Sys2Proof.Machine.execPmSecond c s
  | .pmPrevCopy c day => Sys2Proof.Machine.execPmPrevCopy c day s
  | .hostReadTimeout r => Sys2Proof.Machine.execHostReadTimeout r s
  | .hostWriteTimeout st => Sys2Proof.Machine.execHostWriteTimeout st s
  | .hostWriteResponse st code => Sys2Proof.Machine.execHostWriteResponse st code s
  | .fpInFrame c raw bytes abort ecc => Sys2Proof.Machine.execFpInFrame c raw bytes abort ecc s
  | .fpOutFrame c xoff ecc => Sys2Proof.Machine.execFpOutFrame c xoff ecc s
  | .fpEnWrite c v => Sys2Proof.Machine.execFpEnWrite c v s
  | .sdLoss c level => Sys2Proof.Machine.execSdLoss c level s
  | .heartbeat c => Sys2Proof.Machine.execHeartbeat c s
  | .handoverPrepareDone halts versionOk cfg => Sys2Proof.Machine.execHandoverPrepareDone halts versionOk cfg s
  | .mbConsWrite copy t => Sys2Proof.Machine.execMbConsWrite copy t s
  | .evrEnable n v => Sys2Proof.Machine.execEvrEnable n v s
  | .dsWordAfterEnd w => Sys2Proof.Machine.execDsWordAfterEnd w s
  | .logPersist ok => Sys2Proof.Machine.execLogPersist ok s
  | .testEnChange v => Sys2Proof.Machine.execTestEnChange v s

end Sys2Proof.Machine
end

