-- ==== Sys2Proof/Machine/Tick.lean ====
section
/-!
DEFINITION. One cycle of the STU clock in which no command waits: what the block does by itself. The opcode
table has no row for a tick.
-/

namespace Sys2Proof.Machine

open Sys2Proof

/-- One cycle of a channel: its time offset moves with its frequency (R426), the burst guard compares TX_EN with its
windows (R207), a glean visits up to 8 cells (R330), its Drill examines entries (R448), and automatic Stop entry is
attempted (R468). During its channel reset nothing happens in it (R75). (DESIGN CHOICE, log entry 1) -/
def Cx.tick (cx : Cx) : Cx :=
  if cx.hl.resetRuns cx.id then cx
  else
    let cx := { cx with ch := cx.ch.timeTick (cycleInc cx.hl.stuY) }
    (((cx.guardTick).gleanRun 8).drillScan).autoStop

/-- A requested device reset is due (R633). (DESIGN CHOICE, log entry 1) -/
def Headland.resetDue (h : Headland) : Bool :=
  match h.pins.resetAt with
  | some t => decide (t.toNat ≤ h.stu.tick.toNat)
  | none => false

/-- What passes in the cycle before the host port has its turn: the counts of the STU advance (R410), each channel has its
cycle, the Headland Drill examines entries (R448), and the handover's phase follows its target's halt and its source's wake
(R547, R533). (DESIGN CHOICE, log entry 1) -/
def State.cycle (s : State) : State :=
  let s := { s with hl := (s.hl.setStu (s.hl.stu.advance s.hl.stuY)).drillScan }
  (s.overChans Cx.tick (List.finRange 17)).hoPoll

/-- DESIGN CHOICE. On an empty queue one cycle of the STU passes: after what the block does by itself, the host port serves a
turn (R36), and a requested device reset begins when it is due (R633). While the device reset is held nothing happens
(R634). Safe for commands, whose meanings name the moments the manual gives them. (DESIGN CHOICE, log entry 1) -/
def State.tick (s : State) : State :=
  if s.hl.pins.resetHeld then s
  else
    let s := s.cycle.hostTurn
    if s.hl.resetDue then { s with hl := s.hl.holdReset false } else s

end Sys2Proof.Machine
end

