-- ==== Sys2Proof/WellFormed.lean ====
section
/-!
DEFINITION. Which commands are well formed: operands that the world outside can hand the block. A command's
meaning is given for every operand; these are the conditions under which the operand stands for an event that can happen.
-/

namespace Sys2Proof

/-- A target access at this address is aligned to its size (R593). -/
def alignedTo (addr : Nat) (wide : Bool) : Bool := addr % (if wide then 8 else 4) == 0

/-- The data of a 32-bit access has 32 bits (R14). -/
def fits (wide : Bool) (v : DWord) : Bool := wide || decide (v.toNat < 2 ^ 32)

/-- The data of an access, a read or a write, has the access's size. -/
def fitsOpt (wide : Bool) (v : Option DWord) : Bool := v.all (fits wide)

/-- Bytes of a retention group: tree banks and the staging buffer hold 256 KiB, the other banks 128 KiB (R251, R312,
R506); the retention flops are not more (R487). -/
def sealSize (g : Nat) : Nat := if (26 ≤ g ∧ g ≤ 34) ∨ g = 48 then 262144 else 131072

/-- Well-formed commands. An access with a row of its own for misalignment is misaligned, every other is aligned
(R593); a line frame's header is cut short only by the next marker (R90); payloads stay below the 2^14 bytes that an
envelope header can name (R99); a message that fails its check does nothing (R145); a doorbell line holds 16 words
(R353); a fetch reads 1 to 8 slots of 32 bytes (R357, R363); a failed read has a failure code (R588); the nanoseconds
of a time stay below a second (R410); a ToD message has 16 bytes (R616). -/
def Instr.wellFormed (i : Instr) : Bool :=
  match i with
  | .registerWrite addr wide v => alignedTo addr.toNat wide && fits wide v
  | .counterLowRead addr => alignedTo addr.toNat false
  | .stoppedAccess _ off wide write => alignedTo off.toNat wide && fitsOpt wide write
  | .accessTimeout .. => true
  | .unalignedTargetAccess addr wide write => !alignedTo addr.toNat wide && fitsOpt wide write
  | .enable .. => true
  | .orderlyDisable .. => true
  | .disableComplete .. => true
  | .chResetGo .. => true
  | .hlRstChanReq mask => mask != 0
  | .channelResetDone .. => true
  | .wedgeDetect .. => true
  | .hlRstDeviceGo .. => true
  | .rstNAssert => true
  | .deviceResetDone => true
  | .fwBoot .. => true
  | .dsCfgWrite .. => true
  | .lineFrameStart _ x => x.header.isSome || x.trunc
  | .framerSyncLoss .. => true
  | .envelopeRx _ _ _ _ payload _ => decide (payload.length < 16384)
  | .cipherReturn _ _ _ plain _ _ _ => decide (plain.length < 16384)
  | .reasmTimeout .. => true
  | .pauseTimerExpiry .. => true
  | .dsMgmtMessage _ ok acts replies => ok || (acts.isEmpty && replies.isEmpty)
  | .to1Expiry .. => true
  | .to2Expiry .. => true
  | .fastReentryAccept .. => true
  | .fastReentryFail .. => true
  | .identityPersist .. => true
  | .serialSet .. => true
  | .identityRead .. => true
  | .identityClear .. => true
  | .portRegister .. => true
  | .portRelease .. => true
  | .fastPolicy .. => true
  | .burstDue _ rets _ => rets.all fun r => decide (r.payload.length < 16384)
  | .burstStart .. => true
  | .txEnOn .. => true
  | .txEnOff .. => true
  | .frameSent .. => true
  | .parseCfgWrite .. => true
  | .keyProfileWrite .. => true
  | .treeSelWrite .. => true
  | .fragAgeOut .. => true
  | .fragTableDisable .. => true
  | .tkeyCommit .. => true
  | .build .. => true
  | .abandon .. => true
  | .disarm .. => true
  | .commit .. => true
  | .release .. => true
  | .rootCheckDone .. => true
  | .armedCommit .. => true
  | .slotDrained .. => true
  | .gleanGo .. => true
  | .toBitmap .. => true
  | .gleanDone .. => true
  | .bankMigrate .. => true
  | .migrationSwitch .. => true
  | .wearSample => true
  | .dbBaseWrite .. => true
  | .queueEnable .. => true
  | .queueTakedown .. => true
  | .queueIdle .. => true
  | .takedownGrantTimeout .. => true
  | .doorbellPoll .. => true
  | .hpInvalidate .. => true
  | .dbKick .. => true
  | .doorbellLineRead _ _ ts => ts.length == 16
  | .descriptorFetch _ _ _ _ slots => decide (1 ≤ slots.length) && decide (slots.length ≤ 8) && slots.all (fun d => d.length == 32)
  | .ownReread _ _ _ slot => slot.length == 32
  | .hostReadRetry _ _ code => code != 0
  | .txFrameStart .. => true
  | .txFrameStored .. => true
  | .txBufferReadError _ _ _ code => code != 0
  | .rxWriteOut .. => true
  | .rxHoldExpiry .. => true
  | .cringEnable .. => true
  | .cringDisable .. => true
  | .cringArm .. => true
  | .heldCompletionWrite .. => true
  | .cplStallRelease .. => true
  | .eventRecordHead .. => true
  | .eventDeferredWrite .. => true
  | .evrDisable .. => true
  | .evrConsWrite .. => true
  | .evrHoldoffExpiry .. => true
  | .vecUnmask .. => true
  | .stuAdj => true
  | .stuSet => true
  | .stuSnapshot => true
  | .stuSourceChange .. => true
  | .ppsInEdge => true
  | .ppsGapTimeout => true
  | .sourceInvalid .. => true
  | .ppsOutRise => true
  | .ppsOutFall => true
  | .todOutSend => true
  | .todInMessage m _ => m.length == 16
  | .tuMsgArm _ _ _ ns _ => decide (ns.toNat < 1000000000)
  | .holdoverExpiry .. => true
  | .integWrite .. => true
  | .tsqPop .. => true
  | .drillWrite .. => true
  | .drillRead .. => true
  | .drillDisarm .. => true
  | .drillFire .. => true
  | .pulseEnd .. => true
  | .captureArm .. => true
  | .captureEdge .. => true
  | .captureTimeout .. => true
  | .idleTimerExpiry .. => true
  | .stopRequest .. => true
  | .stopEntry .. => true
  | .stopAbortDone .. => true
  | .stopEntered .. => true
  | .wakeRequest .. => true
  | .stopTimerExpiry .. => true
  | .wakeComplete _ flips errs => flips.all (fun x => decide (x.addr.val < sealSize x.group.val)) && decide errs.ues.Nodup
  | .brownOut .. => true
  | .padRelease .. => true
  | .dvfsFreqRequest .. => true
  | .dvfsVoltRequest .. => true
  | .dvfsFreqDone => true
  | .dvfsVoltDone => true
  | .budgetWrite .. => true
  | .budgetArbitrate => true
  | .moverGo .. => true
  | .moverStart .. => true
  | .moverRetry .. => true
  | .moverDone .. => true
  | .moverClear .. => true
  | .moverAbort .. => true
  | .windowSelectWrite .. => true
  | .windowAccess .. => true
  | .handover .. => true
  | .handoverFreeze .. => true
  | .handoverTransfer .. => true
  | .handoverSwitch => true
  | .handoverResumeDone => true
  | .handoverAbort .. => true
  | .configExport .. => true
  | .fallowDesignate .. => true
  | .fallowTest .. => true
  | .fallowTestDone bad _ => decide bad.Nodup
  | .mbCmdTail .. => true
  | .mbRingCtlWrite .. => true
  | .mbCommandReread .. => true
  | .mgmtSend _ _ _ data => decide (data.length ≤ 2044)
  | .fwStage .. => true
  | .fwWrite .. => true
  | .fwWriteDone .. => true
  | .fwActivate .. => true
  | .fwReady => true
  | .fwRevert => true
  | .fwAccept .. => true
  | .fwInfo .. => true
  | .copyDrain => true
  | .keyItem .. => true
  | .sensorSample .. => true
  | .logRecord .. => true
  | .logConsWrite .. => true
  | .persistRetry .. => true
  | .pmSecond .. => true
  | .pmPrevCopy .. => true
  | .hostReadTimeout .. => true
  | .hostWriteTimeout .. => true
  | .hostWriteResponse .. => true
  | .fpInFrame .. => true
  | .fpOutFrame .. => true
  | .fpEnWrite .. => true
  | .sdLoss .. => true
  | .heartbeat .. => true
  | .handoverPrepareDone _ _ cfg => cfg.all fun e => e.1.toNat % 4 == 0
  | .mbConsWrite .. => true
  | .evrEnable .. => true
  | .dsWordAfterEnd .. => true
  | .logPersist .. => true
  | .testEnChange .. => true

end Sys2Proof
end

