-- ==== Sys2Proof/Safety.lean ====
section
/-!
DEFINITION. The terms in which statements about the block are made: when a channel or the Headland takes a
command, what a command changes and leaves alone, canonical tables, well-formed queues, runs of commands, and which
commands concern one channel only.
-/

namespace Sys2Proof.Machine

open Sys2Proof

/-! ### When commands are taken -/

/-- No device reset is held (R634). -/
abbrev State.up (s : State) : Prop := s.hl.pins.resetHeld = false

/-- No device reset is held and no channel reset of the channel runs (R75, R634). -/
abbrev State.ready (s : State) (c : ChanId) : Prop := s.up ∧ s.hl.resetRuns c = false

/-- The target interface takes accesses: no device reset is held, and TEST_EN is 0 (R624, R634). -/
abbrev State.listens (s : State) : Prop := s.up ∧ s.hl.pins.testEn = false

/-- A write of the channel's core island takes effect: its clock runs and it is not Halted (R46, R67). -/
abbrev State.takes (s : State) (c : ChanId) : Prop :=
  s.listens ∧ s.hl.resetRuns c = false ∧ s.chans[c].coreStopped = false ∧ s.chans[c].mode ≠ ModeCode.halted

/-- The Headland core takes the record `m` at the head of the ring as that of the command `op`: its mark fits, and its
opcode is `op` (R554, R555, R558). -/
abbrev State.heads (s : State) (m : CmdHead) (op : Nat) : Prop :=
  s.up ∧ s.hl.canTake = true ∧ s.hl.marked m = true ∧ m.opcode = op

/-- It finds no bit set in the record that the command does not use, and runs an image (R555, R571). -/
abbrev State.serving (s : State) (m : CmdHead) (op : Nat) : Prop :=
  s.heads m op ∧ s.hl.noImage = false ∧ m.bad op = false

/-- The same of a command that names channel `c`. -/
abbrev State.serves (s : State) (m : CmdHead) (op : Nat) (c : ChanId) : Prop :=
  s.serving m op ∧ m.chan.val = c.val

/-! ### What a command changes -/

/-- A view as it stands between commands: nothing is under way that the ECC could find an error in (R315). -/
def Cx.settled (cx : Cx) : Cx := { cx with ecc := .none }

/-- `exec` answers a next state in which only channel `c` and the Headland may differ, and in which `P` relates
what they were to what they are. -/
def completes (i : Instr) (s : State) (c : ChanId) (P : Cx → Cx → Prop) : Prop :=
  ∃ t, exec i s = .next t ∧ t = s.putView c (t.view c) ∧ P (s.view c) (t.view c)

/-- `exec` answers a next state in which only the Headland may differ, and in which `P` relates what it was to
what it is. -/
def completesHl (i : Instr) (s : State) (P : Headland → Headland → Prop) : Prop :=
  ∃ t, exec i s = .next t ∧ t = { s with hl := t.hl } ∧ P s.hl t.hl

/-- `exec` takes the mailbox command, changes at most channel `c` and the Headland as `P` relates them, and then answers
the command with a status (R555, R557). -/
def answered (i : Instr) (s : State) (m : CmdHead) (status : Nat) (logs : Bool) (c : ChanId)
    (P : Cx → Cx → Prop) : Prop :=
  ∃ u : State, exec i s = .next { u with hl := u.hl.respond m status [] logs } ∧ u = s.putView c (u.view c) ∧
    P ⟨c, s.chans[c], s.hl.take, .none⟩ (u.view c)

/-- The same of a command that changes at most the Headland; `data` is what the answer carries. -/
def answeredHl (i : Instr) (s : State) (m : CmdHead) (status : Nat) (data : List Byte) (logs : Bool)
    (P : Headland → Headland → Prop) : Prop :=
  ∃ u : State, exec i s = .next { u with hl := u.hl.respond m status data logs } ∧ u = { s with hl := u.hl } ∧
    P s.hl.take u.hl

/-- Of the channel, only the registers and counters listed may differ; the Headland is as it was. -/
def Cx.only (cx cx' : Cx) (regs cnts : List Nat) : Prop :=
  cx' = { cx with ch := { cx.ch with regs := cx'.ch.regs, cnts := cx'.ch.cnts } } ∧
    (∀ o, o ∉ regs → cx'.get o = cx.get o) ∧ ∀ o, o ∉ cnts → cx'.ch.cnt o = cx.ch.cnt o

/-- Of the Headland, only the registers and counters listed may differ. -/
def Headland.only (h h' : Headland) (regs cnts : List Nat) : Prop :=
  h' = { h with regs := h'.regs, cnts := h'.cnts } ∧
    (∀ o, o ∉ regs → h'.get o = h.get o) ∧ ∀ o, o ∉ cnts → h'.cnt o = h.cnt o

/-- The registers and counters of the channel read as before, but for those listed. -/
def Cx.regsBut (cx cx' : Cx) (regs cnts : List Nat) : Prop :=
  (∀ o, o ∉ regs → cx'.get o = cx.get o) ∧ ∀ o, o ∉ cnts → cx'.ch.cnt o = cx.ch.cnt o

/-- The registers and counters of the Headland read as before, but for those listed. -/
def Headland.regsBut (h h' : Headland) (regs cnts : List Nat) : Prop :=
  (∀ o, o ∉ regs → h'.get o = h.get o) ∧ ∀ o, o ∉ cnts → h'.cnt o = h.cnt o

/-- What raising events may change in the Headland: its write stream, deferred records and pins, the routing entries'
PENDING, the deferred counts of the rings named by deferred records, pending vectors, and the counters of events
(R399, R403, R405, R408, R590). -/
def Headland.evented (h h' : Headland) : Prop :=
  h' = { h with regs := h'.regs, cnts := h'.cnts, stream := h'.stream, deferred := h'.deferred, pins := h'.pins } ∧
    (∀ o, (∀ n < 512, o ≠ Reg.HL_EVSRC n) → (∀ r ∈ h.deferred, o ≠ Reg.HL_EVR_STAT r.ring) →
      o ≠ Reg.HL_VEC_PEND_LO → o ≠ Reg.HL_VEC_PEND_HI → h'.get o = h.get o) ∧
    ∀ o, o ∉ [Cnt.HL_CNT_EV_COALESCED, Cnt.HL_CNT_VEC_MSGS, Cnt.HL_CNT_HP_HL_DISCARD] → h'.cnt o = h.cnt o

/-- Of the channel, only the registers and counters listed and its write stream may differ, and of the Headland only
what raising events may change. -/
def Cx.onlyEv (cx cx' : Cx) (regs cnts : List Nat) : Prop :=
  cx'.ch = { cx.ch with regs := cx'.ch.regs, cnts := cx'.ch.cnts, stream := cx'.ch.stream } ∧ cx'.id = cx.id ∧
    (∀ o, o ∉ regs → cx'.get o = cx.get o) ∧ (∀ o, o ∉ cnts → cx'.ch.cnt o = cx.ch.cnt o) ∧
    Headland.evented cx.hl cx'.hl

/-- The channel's event `k`, where it is enabled and the stream it goes by takes records, has one on its way (R399,
R403). -/
def Cx.raised (cx cx' : Cx) (k : Nat) : Prop :=
  cx.ch.stream.closed = false → cx.hl.fatal = false →
    cx.hl.flg (Reg.HL_EVSRC (24 * cx.id.val + k)) F.HL_EVSRC_EN = true →
    cx'.hl.flg (Reg.HL_EVSRC (24 * cx.id.val + k)) F.HL_EVSRC_PENDING = true

/-- The source `src` of the Headland, where it is enabled and the Headland stream takes records, has one on its way
(R399, R403). -/
def Headland.raised (h h' : Headland) (src : Nat) : Prop :=
  h.fatal = false → h.flg (Reg.HL_EVSRC src) F.HL_EVSRC_EN = true →
    h'.flg (Reg.HL_EVSRC src) F.HL_EVSRC_PENDING = true

/-- A vector message, a watch or an unwatch: it expects no response (R655). -/
def StreamItem.message : StreamItem → Bool
  | .vector _ => true
  | .watch _ => true
  | .unwatch _ => true
  | _ => false

/-- The bytes of a frame that a write for a receive queue carries (R371). -/
def StreamItem.rxBytes : StreamItem → List Byte
  | .data .rxData _ bs => bs
  | _ => []

/-- The channel's memories are as they were, byte by byte. -/
def Chan.sameMems (c c' : Chan) : Prop :=
  c'.tree = c.tree ∧ c'.ctxm = c.ctxm ∧ c'.buf = c.buf ∧ c'.stg = c.stg

/-! ### Frames that arrive -/

/-- The header of a line frame passes the checks of its receive mode, and what it names has arrived (R94 to R97). -/
def headerPasses (x : LineIn) (mode : Nat) (w : DWord) : Bool :=
  (readHeader mode x.len w x.hec).pass && (readHeader mode x.len w x.hec).heldBy x

/-- A line frame with the header `w` arrives behind the line frame `l`, which the guard has evaluated and which was not
cut, at a channel that is in no handover and no disable, and none of whose ended seconds waits for a line frame. -/
abbrev State.frameArrives (s : State) (c : ChanId) (x : LineIn) (l : LineFrame) (w : DWord) : Prop :=
  s.ready c ∧ (s.view c).lineOn = true ∧ s.chans[c].ds.cur = some l ∧ l.evald = true ∧ x.trunc = false ∧
    x.sync = true ∧ x.header = some w ∧ s.chans[c].disabling = false ∧ s.chans[c].pm.held = none ∧
    s.chans[c].mode ≠ ModeCode.handover

/-- What is stored of the partial frame of context `k` is whole: the walk of its cells finds no error and no lost cell, and
ends at the cell that takes its next byte (R314, R339). -/
abbrev Cx.partWhole (cx : Cx) (k : Nat) : Prop :=
  (cx.chainFrom 63 (nbits (cx.partW k) 13 0)).2 = true ∧
    (cx.chainFrom 63 (nbits (cx.partW k) 13 0)).1.length = cellsFor (cx.partLen k) ∧
    (cx.chainFrom 63 (nbits (cx.partW k) 13 0)).1.getLast? = some (nbits (cx.partW k) 27 14) ∧
    ∀ n ∈ (cx.chainFrom 63 (nbits (cx.partW k) 13 0)).1, (cx.cell n).lost = false

/-- The cipher engine is to return the envelope `i`, which goes on the partial frame of its context, and whose payload
`plain` the frame's last cell has room for; no memory that it uses has a bad row. -/
abbrev State.appends (s : State) (c : ChanId) (i : CipherItem) (plain : List Byte) : Prop :=
  s.ready c ∧ (s.view c).finishing = true ∧ (s.view c).clsOpen = true ∧ s.chans[c].ds.cipherQ = [i] ∧
    i.enc = true ∧ i.drop = false ∧ i.ctx < 16384 ∧ s.chans[c].badRows = [] ∧
    (s.view c).discarding i.ctx = false ∧ (s.view c).partial_ i.ctx = true ∧ (s.view c).partEpoch i.ctx = i.epoch ∧
    nbits ((s.view c).partW i.ctx) 31 30 = i.key ∧ plain.length = i.payload.length ∧ plain ≠ [] ∧
    (s.view c).partLen i.ctx % 256 ≠ 0 ∧ (s.view c).partLen i.ctx % 256 + plain.length ≤ 256 ∧
    (s.view c).partLen i.ctx + plain.length ≤ (s.view c).maxLen

/-- The envelope `i` is the last of its frame, which entered as `en`, has no decision yet and is then `full` (R115, R123). -/
abbrev State.closes (s : State) (c : ChanId) (i : CipherItem) (plain full : List Byte) (en : Entry) : Prop :=
  s.appends c i plain ∧ i.last = true ∧ (s.view c).partWhole i.ctx ∧
    Sparse.get (fun _ => none) s.chans[c].ds.entry i.ctx = some en ∧ en.seen = none ∧
    full = (s.view c).frameBytes (nbits ((s.view c).partW i.ctx) 13 0) ((s.view c).partLen i.ctx) ++ plain

/-- A closed frame without error of a context that is none of management, and no MAC Control frame (R109, R125, R211). -/
abbrev Cx.goodFrame (full : List Byte) (en : Entry) (cx : Cx) : Prop :=
  64 ≤ full.length ∧ fcsOk full = true ∧ nbit en.aw 1 = false ∧ cx.macControl full = false

/-- Parsing of a closed frame: its FCS is no part of it (R219). -/
def Cx.parsed (cx : Cx) (full : List Byte) : Parsed := parse cx.parseCfg (full.take (full.length - 4))

/-- The decision on a closed frame that enters as `en` (steps 6 to 9 of R139). -/
def Cx.decides (cx : Cx) (full : List Byte) (en : Entry) : Decision :=
  cx.decision (dsArrived en 0 full (full.take (full.length - 4)) 0) (cx.parsed full)

/-! ### Bursts and completions -/

/-- Content byte `k` of a burst falls due: it leaves the framer interface at most H from now (R198). -/
def Cx.dueAt (cx : Cx) (bu : Burst) (k : Nat) : Bool :=
  decide (bu.sIf + (cx.medByte bu.profile k * 8 * cx.bitQ : Nat) ≤ cx.nowQ + cx.horizon cx.dsMode)

/-- The bytes that the only grant of a burst has left for envelopes (R186). -/
def Cx.spaceOf (cx : Cx) (bu : Burst) : Nat := bu.grantStop cx.dsMode 0 - bu.built.out.length

/-- In Service the builder stands at position `pos` of a burst whose only grant is `g`, of the allocation slot `slot`, and
what stands there is due; nothing has replaced the burst's content, and no memory has a bad row. -/
abbrev State.fills (s : State) (c : ChanId) (bu : Burst) (g : Grant) (slot : Nat) (pos : BurstPos) : Prop :=
  s.ready c ∧ (s.view c).running = true ∧ (s.view c).subStopped 5 = false ∧ (s.view c).mode = ModeCode.service ∧
    s.chans[c].disabling = false ∧ s.chans[c].badRows = [] ∧ s.chans[c].us.bursts.find? Burst.open_ = some bu ∧
    bu.grants = [g] ∧ g.slot = some slot ∧ g.acc = false ∧ bu.built.pos = pos ∧ bu.built.cut = none ∧
    (s.view c).dueAt bu bu.built.out.length = true

/-- The scheduler takes the next frame of a slot from queue `q` at the medium time `t`: the frame that was sent in part
goes on; by strict priority the queue of the highest PRIO, the lowest number among them; in the rotation the present queue,
while its deficit covers its frame (R190, R195 to R197). -/
abbrev Cx.turnOf (cx : Cx) (slot q : Nat) (t : Int) : Prop :=
  cx.partQueue slot = some q ∨
    (cx.partQueue slot = none ∧ q ∈ cx.slotMembers slot ∧ cx.eligible q t = true ∧
      (cx.flg (Reg.CH_US_SLOT slot) F.CH_US_SLOT_SCHED = false →
        ∀ p ∈ cx.slotMembers slot, cx.eligible p t = true →
          cx.txPrio p < cx.txPrio q ∨ (cx.txPrio p = cx.txPrio q ∧ q ≤ p)) ∧
      (cx.flg (Reg.CH_US_SLOT slot) F.CH_US_SLOT_SCHED = true →
        Sparse.get (fun _ => 0) cx.ch.us.sched slot = 1 ∧
          Sparse.get (fun _ => none) cx.ch.us.curq slot = some q ∧
          ∀ f, cx.txHead q = some f → f.env cx.dsMode ≤ cx.deficit q))

/-- The completion `e` has fallen due: it stands in its ring's next slot, where that is free and none of the ring's is
held, and otherwise behind the held ones (R383, R391, R394). -/
def Cx.completed (cx cx' : Cx) (e : CplEntry) : Prop :=
  let log2 := cx.fld (Reg.CH_CRING_CTL e.ring) F.CH_CRING_CTL_SIZE_LOG2
  let long := cx.flg (Reg.CH_CRING_CTL e.ring) F.CH_CRING_CTL_LONG
  let p := cx.get (Reg.CH_CRING_PROD e.ring)
  if cx.crFree e.ring = true ∧ ∀ x ∈ cx.ch.rings.hold, x.ring ≠ e.ring then
    cx'.get (Reg.CH_CRING_PROD e.ring) = p + 1 ∧ cx'.ch.rings.hold = cx.ch.rings.hold ∧
      cx'.ch.cnt Cnt.CH_CNT_CPL_WRITTEN = cx.ch.cnt Cnt.CH_CNT_CPL_WRITTEN + 1 ∧
      (cx.ch.stream.closed = false →
        .data .completion (BitVec.ofNat 64 (slotAddr (cx.get (Reg.CH_CRING_BASE_LO e.ring))
          (cx.get (Reg.CH_CRING_BASE_HI e.ring)) (if long then 32 else 16) log2 p)) (e.bytes long (phaseOf p log2)) ∈
          cx'.ch.stream.items)
  else
    cx'.get (Reg.CH_CRING_PROD e.ring) = p ∧ cx'.ch.rings.hold = cx.ch.rings.hold ++ [e] ∧
      cx'.ch.cnt Cnt.CH_CNT_CPL_HELD = cx.ch.cnt Cnt.CH_CNT_CPL_HELD + 1

/-- The decision on a frame of transmit queue `q` that entered as `en` (steps 6 to 9 of R139). -/
def Cx.usDecides (cx : Cx) (plain : List Byte) (en : Entry) (q : Nat) : Decision :=
  cx.decision ⟨en, true, Owner.usRing, 0, padFcs plain, plain, 0, q, q, none, none⟩ (parse cx.parseCfg plain)

/-! ### Registers without a rule of their own -/

/-- A rule of its own, beyond the access types of its fields, governs a write of the channel register at `off`. -/
def chOwnRule (off : Nat) : Bool :=
  [Reg.CH_MODE_CTL, Reg.CH_RESET, Reg.CH_DS_CFG, Reg.CH_PARSE_CFG, Reg.CH_PARSE_TPID, Reg.CH_PARSE_UDP, Reg.CH_FRAG_CFG,
    Reg.CH_CLS_CFG, Reg.CH_SHEAF_CTL, Reg.CH_GR_GLEAN, Reg.CH_DB_BASE_LO, Reg.CH_DB_BASE_HI, Reg.CH_DB_KICK,
    Reg.CH_TU_CTL, Reg.CH_TU_INTEG, Reg.CH_TSQ_POP, Reg.CH_PWR_CTL, Reg.CH_PAD_RELEASE, Reg.CH_LANE, Reg.CH_DRILL_CMD,
    Reg.CH_PORT_CFG].contains off ||
  (decide (Reg.CH_IND 0 ≤ off) && decide (off < Reg.CH_IND 256)) || (slotOfReg off).isSome ||
  (decide (0x6000 ≤ off) && decide (off < 0xA800)) ||
  (decide (Reg.CH_DRILL_GATE 0 ≤ off) && decide (off < Reg.CH_DRILL_GATE 8))

/-! ### Canonical tables -/

/-- The register, counter and memory tables of a channel are in canonical form. -/
def Chan.canonical (c : Chan) : Bool :=
  Sparse.wf chReset c.regs && Sparse.wf zeroCnt c.cnts && Sparse.wf zeroByte c.tree && Sparse.wf zeroByte c.ctxm &&
    Sparse.wf zeroByte c.buf && Sparse.wf zeroByte c.stg

/-- The register, counter and memory tables of the Headland are in canonical form. -/
def Headland.canonical (h : Headland) : Bool :=
  Sparse.wf hlReset h.regs && Sparse.wf zeroCnt h.cnts && Sparse.wf zeroByte h.log && Sparse.wf zeroByte h.fwImage &&
    Sparse.wf zeroByte h.coreMem && Sparse.wf zeroByte h.ident && Sparse.wf zeroByte h.psIdent

/-- Every table of the block is in canonical form. -/
def State.canonical (s : State) : Bool :=
  s.chans.toList.all Chan.canonical && s.hl.canonical

/-- Every memory of a channel is in canonical form. -/
def Chan.memsWf (c : Chan) : Bool :=
  Sparse.wf zeroByte c.tree && Sparse.wf zeroByte c.ctxm && Sparse.wf zeroByte c.buf && Sparse.wf zeroByte c.stg

/-- Every memory of the block is in canonical form: those of the channels, the log, the firmware image, the core's, and
the identity records with their persistent copies. -/
def State.memsWf (s : State) : Bool :=
  s.chans.toList.all Chan.memsWf && (Sparse.wf zeroByte s.hl.log && Sparse.wf zeroByte s.hl.fwImage &&
    Sparse.wf zeroByte s.hl.coreMem && Sparse.wf zeroByte s.hl.ident && Sparse.wf zeroByte s.hl.psIdent)

/-! ### Queues and runs of commands -/

/-- Every waiting command is well-formed. -/
def State.queueOk (s : State) : Bool := s.pending.all Instr.wellFormed

/-- The state after a list of commands, each run in turn; a fault or a refusal ends the run. -/
def run : List Instr → State → Out
  | [], s => .next s
  | i :: is, s =>
    match exec i s with
    | .next t => run is t
    | o => o

end Sys2Proof.Machine

namespace Sys2Proof

/-! ### Commands that store -/

/-- Commands that can write a channel's tree memory: those of the windows and the mover, the phases of a handover that
copy, the fallow test, the ends of the resets, and a wake, for what retention changed. -/
def Instr.storesTree : Instr → Bool
  | .registerWrite .. | .windowAccess .. | .moverStart .. | .moverRetry .. | .hostReadTimeout ..
  | .handoverPrepareDone .. | .handoverTransfer .. | .fallowTestDone .. | .channelResetDone .. | .deviceResetDone
  | .wakeComplete .. => true
  | _ => false

/-- Commands that can write the firmware image memory. -/
def Instr.storesImage : Instr → Bool
  | .moverStart .. | .moverRetry .. | .hostReadTimeout .. | .deviceResetDone => true
  | _ => false

/-- Commands that can write the key store. -/
def Instr.storesKeys : Instr → Bool
  | .keyItem .. | .identityClear .. | .handoverSwitch | .deviceResetDone => true
  | _ => false

/-- Commands that can write the log. -/
def Instr.storesLog : Instr → Bool
  | .logRecord .. | .fwBoot .. | .fwActivate .. | .deviceResetDone => true
  | _ => false

/-- Commands that can write the persistent copies of the identity records. -/
def Instr.storesPersistent : Instr → Bool
  | .identityPersist .. => true
  | _ => false

/-! ### Commands of one channel -/

/-- The channel of a command that concerns one channel and the Headland only (R32); none for the others: the
Headland's own commands, the mailbox commands, and those that can move a handover. -/
def Instr.chan? : Instr → Option ChanId
  | .enable c _ => some c
  | .orderlyDisable c _ => some c.chan
  | .disableComplete c => some c.chan
  | .channelResetDone c => some c
  | .wedgeDetect c => some c
  | .dsCfgWrite c _ => some c
  | .lineFrameStart c _ => some c
  | .framerSyncLoss w => some w.chan
  | .envelopeRx c _ _ _ _ _ => some c
  | .cipherReturn c _ _ _ _ _ _ => some c
  | .reasmTimeout c _ _ => some c
  | .pauseTimerExpiry c _ => some c
  | .dsMgmtMessage c _ _ _ => some c
  | .to1Expiry c => some c
  | .to2Expiry c => some c
  | .fastReentryAccept c => some c
  | .fastReentryFail c => some c
  | .burstDue c _ _ => some c
  | .burstStart c _ _ => some c
  | .txEnOn c _ => some c
  | .txEnOff c => some c.chan
  | .frameSent c => some c
  | .parseCfgWrite c _ _ => some c
  | .keyProfileWrite c _ _ => some c
  | .treeSelWrite c _ _ => some c
  | .fragAgeOut c _ => some c
  | .fragTableDisable c => some c
  | .tkeyCommit c => some c
  | .build c _ => some c
  | .abandon c _ => some c
  | .disarm c _ => some c
  | .commit c _ => some c
  | .release c _ => some c
  | .rootCheckDone c => some c.chan
  | .armedCommit c => some c
  | .slotDrained c _ => some c
  | .gleanGo c => some c
  | .toBitmap c => some c
  | .gleanDone c => some c.chan
  | .migrationSwitch c _ => some c.chan
  | .dbBaseWrite c _ _ => some c
  | .queueEnable c _ _ _ => some c
  | .queueTakedown c _ _ _ => some c.chan
  | .queueIdle c _ _ => some c
  | .takedownGrantTimeout c _ => some c
  | .doorbellPoll c => some c
  | .dbKick c _ => some c
  | .doorbellLineRead c _ _ => some c
  | .descriptorFetch c _ _ _ _ => some c
  | .ownReread c _ _ _ => some c
  | .hostReadRetry c _ _ => some c
  | .txFrameStart c => some c
  | .txFrameStored c _ _ _ => some c
  | .txBufferReadError c _ _ _ => some c
  | .rxWriteOut c _ _ => some c
  | .rxHoldExpiry c _ => some c.chan
  | .cringEnable c _ _ => some c
  | .cringDisable c _ _ => some c
  | .cringArm c _ _ => some c
  | .heldCompletionWrite c _ => some c.chan
  | .cplStallRelease c _ _ => some c
  | .eventRecordHead c => c
  | .sourceInvalid c => c
  | .tuMsgArm c _ _ _ _ => some c
  | .holdoverExpiry c => c
  | .integWrite c _ => c
  | .tsqPop c => some c
  | .drillWrite c _ => c
  | .drillRead c _ => c
  | .drillDisarm c _ => c
  | .drillFire c _ => c
  | .idleTimerExpiry c => some c
  | .stopRequest c _ => some c
  | .stopEntry c => some c
  | .stopAbortDone c => some c
  | .stopEntered c => some c
  | .wakeRequest c _ => some c
  | .stopTimerExpiry c => some c
  | .brownOut c => some c
  | .padRelease c => some c
  | .keyItem c _ _ _ => some c
  | .pmSecond c => some c
  | .pmPrevCopy c _ => some c
  | .fpInFrame c _ _ _ _ => some c
  | .fpOutFrame c _ _ => some c
  | .fpEnWrite c _ => some c.chan
  | .sdLoss c _ => some c
  | .heartbeat c => some c
  | .dsWordAfterEnd w => some w.chan
  | .registerWrite .. => none
  | .counterLowRead .. => none
  | .stoppedAccess .. => none
  | .accessTimeout .. => none
  | .unalignedTargetAccess .. => none
  | .chResetGo .. => none
  | .hlRstChanReq .. => none
  | .hlRstDeviceGo .. => none
  | .rstNAssert .. => none
  | .deviceResetDone .. => none
  | .fwBoot .. => none
  | .identityPersist .. => none
  | .serialSet .. => none
  | .identityRead .. => none
  | .identityClear .. => none
  | .portRegister .. => none
  | .portRelease .. => none
  | .fastPolicy .. => none
  | .bankMigrate .. => none
  | .wearSample .. => none
  | .hpInvalidate .. => none
  | .eventDeferredWrite .. => none
  | .evrDisable .. => none
  | .evrConsWrite .. => none
  | .evrHoldoffExpiry .. => none
  | .vecUnmask .. => none
  | .stuAdj .. => none
  | .stuSet .. => none
  | .stuSnapshot .. => none
  | .stuSourceChange .. => none
  | .ppsInEdge .. => none
  | .ppsGapTimeout .. => none
  | .ppsOutRise .. => none
  | .ppsOutFall .. => none
  | .todOutSend .. => none
  | .todInMessage .. => none
  | .pulseEnd .. => none
  | .captureArm .. => none
  | .captureEdge .. => none
  | .captureTimeout .. => none
  | .wakeComplete .. => none
  | .dvfsFreqRequest .. => none
  | .dvfsVoltRequest .. => none
  | .dvfsFreqDone .. => none
  | .dvfsVoltDone .. => none
  | .budgetWrite .. => none
  | .budgetArbitrate .. => none
  | .moverGo .. => none
  | .moverStart .. => none
  | .moverRetry .. => none
  | .moverDone .. => none
  | .moverClear .. => none
  | .moverAbort .. => none
  | .windowSelectWrite .. => none
  | .windowAccess .. => none
  | .handover .. => none
  | .handoverFreeze .. => none
  | .handoverTransfer .. => none
  | .handoverSwitch .. => none
  | .handoverResumeDone .. => none
  | .handoverAbort .. => none
  | .configExport .. => none
  | .fallowDesignate .. => none
  | .fallowTest .. => none
  | .fallowTestDone .. => none
  | .mbCmdTail .. => none
  | .mbRingCtlWrite .. => none
  | .mbCommandReread .. => none
  | .mgmtSend .. => none
  | .fwStage .. => none
  | .fwWrite .. => none
  | .fwWriteDone .. => none
  | .fwActivate .. => none
  | .fwReady .. => none
  | .fwRevert .. => none
  | .fwAccept .. => none
  | .fwInfo .. => none
  | .copyDrain .. => none
  | .sensorSample .. => none
  | .logRecord .. => none
  | .logConsWrite .. => none
  | .persistRetry .. => none
  | .hostReadTimeout .. => none
  | .hostWriteTimeout .. => none
  | .hostWriteResponse .. => none
  | .handoverPrepareDone .. => none
  | .mbConsWrite .. => none
  | .evrEnable .. => none
  | .logPersist .. => none
  | .testEnChange .. => none

end Sys2Proof
end

