-- ==== Sys2Proof/Certificates/Slice0/Obligations.lean ====
section
/-!
DEFINITION. The statements for the provers, family by family, each formalising rules of the spec.
-/

open Sys2Proof Sys2Proof.Machine

/-! ### Target accesses -/

/-- UNALIGNED_TARGET_ACCESS and every other access that is not aligned to its size completes in error, and is counted
(R593). STOPPED_ACCESS: an aligned access to a core-island area of a channel whose core clock is stopped reads zero or
is discarded, and increments the channel's stopped-access counter; nothing else changes (R46). ACCESS_TIMEOUT: the
access is completed in error, a read with all ones; ACCESS_TIMEOUT is raised, and with wedge detection on and firmware
up the channel is marked wedged (R71, R549). -/
def Obligations.TargetAccessesAnswered : Prop :=
  ((∀ (s : State) (addr : BitVec 21) (wide : Bool) (w : Option DWord), s.listens → alignedTo addr.toNat wide = false →
    completesHl (.unalignedTargetAccess addr wide w) s fun h h' =>
      h' = { h.inc Cnt.HL_CNT_HP_TGT_BAD with pins := { h.pins with rsp := some (0, true) } }) ∧
  ∀ (s : State) (addr : BitVec 21) (wide : Bool) (v : DWord), s.listens → alignedTo addr.toNat wide = false →
    completesHl (.registerWrite addr wide v) s fun h h' =>
      h' = { h.inc Cnt.HL_CNT_HP_TGT_BAD with pins := { h.pins with rsp := some (0, true) } }) ∧
  (∀ (s : State) (c : ChanId) (off : BitVec 16) (wide : Bool) (w : Option DWord), s.listens →
    s.hl.resetRuns c = false →
    s.chans[c].coreStopped = true → (off.toNat < 0xC000 ∨ 0xD000 ≤ off.toNat) → alignedTo off.toNat wide = true →
    completes (.stoppedAccess c off wide w) s c fun cx cx' =>
      cx'.ch = { cx.ch with cnts := cx'.ch.cnts } ∧
      (∀ o, cx'.ch.cnt o = if o = Cnt.CH_CNT_PWR_STOPPED_ACCESS then cx.ch.cnt o + 1 else cx.ch.cnt o) ∧
      cx'.hl = (if w.isSome then cx.hl else { cx.hl with pins := { cx.hl.pins with rsp := some (0, false) } })) ∧
  (∀ (s : State) (c : ChanId) (wide read : Bool), s.listens →
    completesHl (.accessTimeout c wide read) s fun h h' =>
      h'.pins.rsp = some (if read then (if wide then BitVec.allOnes 64 else 0xFFFFFFFF) else 0, true) ∧
      Headland.raised h h' Ev.accessTimeout ∧
      (h.flg Reg.HL_FM_WEDGE_CFG F.HL_FM_WEDGE_CFG_EN = true → h.fwUp = true →
        h'.flg Reg.HL_FM_WEDGED ⟨c.val, 1⟩ = true))

/-- REGISTER_WRITE: a 32-bit write of a channel register that no rule of its own governs leaves each bit as its access
type says; where no register is, and in the other fields, nothing changes (R20, R25). COUNTER_LOW_READ: a 32-bit read
of a counter's low word answers it and latches the high word; a read of the high word answers what is latched, or,
where nothing is latched, the live high word, and disturbs no latch (R26). -/
def Obligations.RegistersWrittenAndCountersRead : Prop :=
  (∀ (s : State) (c : ChanId) (addr : BitVec 21) (off : Nat) (v : DWord), s.takes c →
    addr.toNat = 0x40000 + 0x10000 * c.val + off → off < 0x10000 → off % 4 = 0 → chOwnRule off = false →
    completes (.registerWrite addr false v) s c fun cx cx' =>
      Cx.only cx cx' [off] [] ∧
      (∀ r, findRow chRows off = some r → ∀ b < 32, (cx'.get off).getLsbD b =
        if r.w1c.testBit b && v.getLsbD b then false
        else if r.rw.testBit b then v.getLsbD b
        else (cx.get off).getLsbD b) ∧
      (findRow chRows off = none → cx'.get off = cx.get off)) ∧
  ((∀ (s : State) (c : ChanId) (addr : BitVec 21) (lo : Nat), s.listens → s.hl.resetRuns c = false →
    s.chans[c].coreStopped = false →
    counterAt chCounters lo = some lo → addr.toNat = 0x40000 + 0x10000 * c.val + lo →
    completes (.counterLowRead addr) s c fun cx cx' =>
      cx'.ch = { cx.ch with latch := cx'.ch.latch } ∧
      (∀ o, Sparse.get noLatch cx'.ch.latch o =
        if o = lo then some (BitVec.extractLsb' 32 32 (cx.ch.cnt lo)) else Sparse.get noLatch cx.ch.latch o) ∧
      cx'.hl = { cx.hl with pins := { cx.hl.pins with
        rsp := some ((BitVec.extractLsb' 0 32 (cx.ch.cnt lo)).setWidth 64, false) } }) ∧
  ∀ (s : State) (c : ChanId) (addr : BitVec 21) (lo : Nat), s.listens → s.hl.resetRuns c = false →
    s.chans[c].coreStopped = false →
    counterAt chCounters lo = some lo → addr.toNat = 0x40000 + 0x10000 * c.val + (lo + 4) →
    completes (.counterLowRead addr) s c fun cx cx' =>
      cx'.ch = cx.ch ∧
      cx'.hl = { cx.hl with pins := { cx.hl.pins with
        rsp := some ((match Sparse.get noLatch cx.ch.latch lo with
          | some w => w
          | none => BitVec.extractLsb' 32 32 (cx.ch.cnt lo)).setWidth 64, false) } })

/-! ### Modes, resets and the start of the firmware -/

/-- ENABLE of a Disabled channel: it enters Acquire and ENABLE reads 1; FAST_OK takes the value written (R56, R58). A
write of ENABLE = 1 to a fallow channel is discarded, and ENABLE reads back 0; FAST_OK alone takes the value written.
While firmware is neither RUNNING nor TRIAL such a write to any channel is discarded too, and raises CONFIG (R57,
R649, R656). ORDERLY_DISABLE in Acquire or Service: ENABLE reads 0, the disable runs, unless what it reads halts the
channel, and every queue's EN reads 0 from its start. DISABLE_COMPLETE: once payload has ended the channel either
still owes something or is Disabled with its transmitter off (R61, R379). -/
def Obligations.EnableAndOrderlyDisable : Prop :=
  (∀ (s : State) (c : ChanId) (fastOk : Bool), s.takes c →
    s.chans[c].flg Reg.CH_MODE_CTL F.CH_MODE_CTL_ENABLE = false → s.chans[c].flg Reg.CH_MODE F.CH_MODE_FALLOW = false →
    (s.hl.fwState = FwState.running ∨ s.hl.fwState = FwState.trial) → s.chans[c].mode = ModeCode.disabled →
    completes (.enable c fastOk) s c fun cx cx' =>
      cx'.mode = ModeCode.acquire ∧ cx'.fld Reg.CH_MODE F.CH_MODE_MODE = ModeCode.acquire ∧
      cx'.flg Reg.CH_MODE_CTL F.CH_MODE_CTL_ENABLE = true ∧
      cx'.flg Reg.CH_MODE_CTL F.CH_MODE_CTL_FAST_OK = fastOk ∧ Chan.sameMems cx.ch cx'.ch) ∧
  ((∀ (s : State) (c : ChanId) (fastOk : Bool), s.takes c →
    s.chans[c].flg Reg.CH_MODE_CTL F.CH_MODE_CTL_ENABLE = false → s.chans[c].flg Reg.CH_MODE F.CH_MODE_FALLOW = true →
    (s.hl.fwState = FwState.running ∨ s.hl.fwState = FwState.trial) →
    completes (.enable c fastOk) s c fun cx cx' =>
      cx' = cx.setf Reg.CH_MODE_CTL F.CH_MODE_CTL_FAST_OK (b2n fastOk) ∧
      cx'.flg Reg.CH_MODE_CTL F.CH_MODE_CTL_ENABLE = false ∧ cx'.mode = cx.mode) ∧
  ∀ (s : State) (c : ChanId) (fastOk : Bool), s.takes c →
    s.chans[c].flg Reg.CH_MODE_CTL F.CH_MODE_CTL_ENABLE = false →
    s.hl.fwState ≠ FwState.running → s.hl.fwState ≠ FwState.trial →
    completes (.enable c fastOk) s c fun cx cx' =>
      Cx.onlyEv cx cx' [Reg.CH_MODE_CTL] [] ∧ cx'.flg Reg.CH_MODE_CTL F.CH_MODE_CTL_ENABLE = false ∧
      cx'.flg Reg.CH_MODE_CTL F.CH_MODE_CTL_FAST_OK = fastOk ∧ cx'.mode = cx.mode ∧ Cx.raised cx cx' Ev.config) ∧
  ((∀ (s : State) (c : ChanId) (ecc : EccFault) (fastOk : Bool), s.takes c →
    (s.chans[c].mode = ModeCode.acquire ∨ s.chans[c].mode = ModeCode.service) → s.chans[c].disabling = false →
    s.chans[c].flg Reg.CH_MODE_CTL F.CH_MODE_CTL_ENABLE = true →
    completes (.orderlyDisable ⟨c, ecc⟩ fastOk) s c fun cx cx' =>
      cx'.flg Reg.CH_MODE_CTL F.CH_MODE_CTL_ENABLE = false ∧
      (cx'.ch.disabling = true ∨ cx'.mode = ModeCode.halted) ∧
      (∀ q < 256, cx'.qEn true q = false ∧ cx'.qEn false q = false) ∧ cx'.ch.tree = cx.ch.tree ∧ cx'.ch.buf = cx.ch.buf) ∧
  ∀ (s : State) (c : ChanId) (ecc : EccFault), s.ready c → s.chans[c].coreStopped = false →
    (s.chans[c].mode = ModeCode.acquire ∨ s.chans[c].mode = ModeCode.service) → s.chans[c].disabling = true →
    s.chans[c].ds.cipherQ = [] → (∀ b ∈ s.chans[c].us.bursts, b.started = false ∨ b.off = true) →
    (∀ e ∈ s.chans[c].ds.entry, ∀ en g, e.2 = some en → en.slot = some g → g < 4) →
    completes (.disableComplete ⟨c, ecc⟩) s c fun _ cx' =>
      cx'.drained = false ∨ cx'.mode = ModeCode.halted ∨
      (cx'.mode = ModeCode.disabled ∧ cx'.fld Reg.CH_MODE F.CH_MODE_MODE = ModeCode.disabled ∧
        cx'.ch.disabling = false ∧ cx'.ch.us.txEn = false))

/-- CH_RESET_GO: with the guard the reset is accepted: REQ reads 1, DONE clears, TX_EN is low, no burst is left, the
lane takes its reset value, its hold cells are released, REG_LP falls and the stream is closed; no other register
changes, and no counter but that of a frame cut short on the frame port. With any other guard the write is refused and
counted, and nothing else changes (R73, R75, R485, R609, R625, R637). HL_RST_CHAN_REQ, in every mode: each channel
whose bit is 1 has its REQ bit at 1 afterwards, and no channel whose bit is 0 changes (R32, R636, R637).
CHANNEL_RESET_DONE: the channel is Disabled, its memories and counters read zero, its queues, Drill entries and
timestamps are gone, its fallow designation and bank map are kept, and PERMIT follows the identity record; every other
register that no rule keeps reads its reset value, but for what marks its open bins INCOMPLETE and what names it as
the source of system time; REQ clears, DONE sets, and identity records are kept (R75, R76, R470, R646). -/
def Obligations.ChannelResetRequestedAndCompleted : Prop :=
  ((∀ (s : State) (c : ChanId) (v : Word), s.listens → s.hl.resetRuns c = false → s.chans[c].coreStopped = false →
    s.hl.ho = none →
    getF v F.CH_RESET_GUARD = 0x5A17 →
    completes (.chResetGo c v) s c fun cx cx' =>
      cx'.hl.flg Reg.HL_RST_CHAN_LO ⟨c.val, 1⟩ = true ∧ cx'.hl.flg Reg.HL_RST_CHAN_HI ⟨c.val, 1⟩ = false ∧
      cx'.ch.us.txEn = false ∧ cx'.ch.us.bursts = [] ∧ cx'.get Reg.CH_LANE = chReset Reg.CH_LANE ∧
      cx'.ch.stream.closed = true ∧ cx'.ch.pwr.lane = none ∧
      cx'.get Reg.CH_PWR_STATUS = setF (cx.get Reg.CH_PWR_STATUS) F.CH_PWR_STATUS_REG_LP 0 ∧
      (∀ o, o ≠ Reg.CH_LANE → o ≠ Reg.CH_PWR_STATUS → cx'.get o = cx.get o) ∧
      (∀ o, o ≠ Cnt.CH_CNT_FP_OUT_ABORTED → cx'.ch.cnt o = cx.ch.cnt o) ∧ Chan.sameMems cx.ch cx'.ch) ∧
  ∀ (s : State) (c : ChanId) (v : Word), s.listens → s.hl.resetRuns c = false → s.chans[c].coreStopped = false →
    getF v F.CH_RESET_GUARD ≠ 0x5A17 →
    completes (.chResetGo c v) s c fun cx cx' => cx' = cx.inc Cnt.CH_CNT_RESET_REFUSED) ∧
  (∀ (s : State) (mask : BitVec 17), s.listens → s.hl.ho = none →
    ∃ t, exec (.hlRstChanReq mask) s = .next t ∧ t.pending = s.pending ∧
      ∀ c : ChanId, if mask.getLsbD c.val then t.hl.resetRuns c = true ∧ Chan.sameMems s.chans[c] t.chans[c]
        else t.chans[c] = s.chans[c] ∧ t.hl.resetRuns c = s.hl.resetRuns c) ∧
  (∀ (s : State) (c : ChanId), s.up → s.hl.resetRuns c = true →
    completes (.channelResetDone c) s c fun cx cx' =>
      cx'.mode = ModeCode.disabled ∧ cx'.ch.cnts = [] ∧ cx'.ch.tree = [] ∧ cx'.ch.ctxm = [] ∧ cx'.ch.buf = [] ∧
      cx'.ch.stg = [] ∧ cx'.ch.rings = ⟨[], [], [], none, 0, [], [], []⟩ ∧ cx'.ch.drill = [] ∧ cx'.ch.drillQ = [] ∧ cx'.ch.tsq = [] ∧
      cx'.ch.disabling = false ∧
      (∀ o, keptReg o = true → cx'.get o = cx.get o) ∧
      (∀ o, keptReg o = false → o ∉ [Reg.CH_MODE, Reg.CH_PWR_STATUS, Reg.CH_PM_CUR15_FLAGS, Reg.CH_PM_CUR24_FLAGS,
        Reg.CH_TU_STATUS] → cx'.get o = chReset o) ∧
      cx'.get Reg.CH_MODE = setF (chReset Reg.CH_MODE) F.CH_MODE_FALLOW (cx.fld Reg.CH_MODE F.CH_MODE_FALLOW) ∧
      (cx.isStuSource = false → cx'.get Reg.CH_TU_STATUS = chReset Reg.CH_TU_STATUS) ∧
      cx'.flg Reg.CH_MODE F.CH_MODE_FALLOW = cx.flg Reg.CH_MODE F.CH_MODE_FALLOW ∧
      cx'.hl.flg Reg.HL_RST_CHAN_LO ⟨c.val, 1⟩ = false ∧ cx'.hl.flg Reg.HL_RST_CHAN_HI ⟨c.val, 1⟩ = true ∧
      cx'.hl.flg Reg.HL_FM_WEDGED ⟨c.val, 1⟩ = false ∧ cx'.hl.drill = cx.hl.drill ∧
      cx'.flg Reg.CH_PWR_STATUS F.CH_PWR_STATUS_PERMIT = nbit (cx'.idLe 0x54 4) 1 ∧ cx'.hl.ident = cx.hl.ident)

/-- HL_RST_DEVICE_GO: with the guard a device reset is due 1 µs later; with any other guard the write is refused and
counted. RST_N_ASSERT holds the device reset at once. TEST_EN_CHANGE to 1, and to 0 in a device reset, moves the input
alone; otherwise to 0 it also lets the messages that the streams kept at their heads go (R624, R633, R634, R655).
DEVICE_RESET_DONE: every channel is as after reset and every Headland register, counter and memory too, but for
HL_RST_STATUS.CAUSE, which names the cause; what lies behind the persist port is kept (R76, R635, R647). -/
def Obligations.DeviceResetRequestedAndCompleted : Prop :=
  ((∀ (s : State) (v : Word), s.listens → getF v F.HL_RST_DEVICE_GUARD = 0x5A17 → s.hl.pins.resetAt = none →
    completesHl (.hlRstDeviceGo v) s fun h h' =>
      h' = { h with pins := { h.pins with resetAt := some (h.stu.tick + 1000) } }) ∧
  (∀ (s : State) (v : Word), s.listens → getF v F.HL_RST_DEVICE_GUARD ≠ 0x5A17 →
    completesHl (.hlRstDeviceGo v) s fun h h' => h' = h.inc Cnt.HL_CNT_RESET_REFUSED) ∧
  (∀ s : State, completesHl .rstNAssert s fun h h' =>
    h' = { h with pins := { h.pins with resetHeld := true, resetAt := none, rstN := true } }) ∧
  (∀ (s : State) (v : Bool), v = true ∨ s.hl.pins.resetHeld = true → completesHl (.testEnChange v) s fun h h' =>
    h' = { h with pins := { h.pins with testEn := v } }) ∧
  ∀ s : State, s.up → ∃ t, exec (.testEnChange false) s = .next t ∧ t.pending = s.pending ∧
    t.hl.pins.testEn = false ∧ t.hl.stream.items = s.hl.stream.items.dropWhile StreamItem.message ∧
    t.hl.ident = s.hl.ident ∧ t.hl.keyStore = s.hl.keyStore ∧
    ∀ c : ChanId, t.chans[c] = { s.chans[c] with stream := { s.chans[c].stream with
      items := s.chans[c].stream.items.dropWhile StreamItem.message } }) ∧
  (∀ s : State, s.hl.pins.resetHeld = true →
    ∃ t, exec .deviceResetDone s = .next t ∧ t.pending = s.pending ∧ t.chans = State.reset.chans ∧
      (∀ o, o ≠ Reg.HL_RST_STATUS → t.hl.get o = hlReset o) ∧
      t.hl.get Reg.HL_RST_STATUS = (if s.hl.pins.rstN then 1 else 2) ∧ t.hl.cnts = [] ∧ t.hl.log = [] ∧
      t.hl.fwImage = [] ∧ t.hl.ident = [] ∧ t.hl.keyStore = [] ∧ t.hl.pins.resetHeld = false ∧
      t.hl.psIdent = s.hl.psIdent ∧ t.hl.mb.psLog = s.hl.mb.psLog ∧ t.hl.fw.counter = s.hl.fw.counter)

/-- HEARTBEAT completes in every state in which the core clock runs: CH_MODE.HEARTBEAT counts up modulo 256 and
nothing else of the registers changes. WEDGE_DETECT completes where the heartbeat stood for TIMEOUT_US: it marks the
channel wedged, once, and leaves the channel alone (R55, R549). REASM_TIMEOUT completes where the partial frame of a
context is older than AGE periods and closes it: the context holds none afterwards, its entry is forgotten, and
REASM_TIMEOUT is counted where the walk of its cells finds them whole; a younger one is left, with everything else
(R119, R125). PAUSE_TIMER_EXPIRY completes for a running timer, which stops: its bit reads 0, and nothing else changes
(R212). DS_WORD_AFTER_END completes where the line island runs: it is counted, and the framer's sync state that comes
with it shows in FRAMER_SYNC; nothing else changes (R92, R596). SD_LOSS completes in every state: the SD bit takes the
level and, where it falls outside Disabled, its counter increments (R600). -/
def Obligations.HeartbeatsTimersAndCounts : Prop :=
  ((∀ (s : State) (c : ChanId), s.ready c → s.chans[c].coreStopped = false →
    completes (.heartbeat c) s c fun cx cx' =>
      cx'.fld Reg.CH_MODE F.CH_MODE_HEARTBEAT = (cx.fld Reg.CH_MODE F.CH_MODE_HEARTBEAT + 1) % 256 ∧
      cx'.fld Reg.CH_MODE F.CH_MODE_MODE = cx.fld Reg.CH_MODE F.CH_MODE_MODE ∧
      cx'.ch = { cx.ch with regs := cx'.ch.regs, fm := cx'.ch.fm } ∧ cx'.hl = cx.hl ∧
      (∀ o, o ≠ Reg.CH_MODE → cx'.get o = cx.get o)) ∧
  ∀ (s : State) (c : ChanId), s.ready c → s.chans[c].coreStopped = false →
    s.hl.flg Reg.HL_FM_WEDGE_CFG F.HL_FM_WEDGE_CFG_EN = true → s.hl.fwUp = true →
    s.chans[c].mode ≠ ModeCode.stop → s.chans[c].mode ≠ ModeCode.disabled →
    1000 * s.hl.fld Reg.HL_FM_WEDGE_CFG F.HL_FM_WEDGE_CFG_TIMEOUT_US ≤ (s.hl.stu.tick - s.chans[c].fm.beatAt).toNat →
    s.hl.flg Reg.HL_FM_WEDGED ⟨c.val, 1⟩ = false →
    completes (.wedgeDetect c) s c fun cx cx' =>
      cx'.ch = cx.ch ∧ cx'.hl.flg Reg.HL_FM_WEDGED ⟨c.val, 1⟩ = true ∧
      cx'.hl.cnt Cnt.HL_CNT_FM_WEDGES = cx.hl.cnt Cnt.HL_CNT_FM_WEDGES + 1) ∧
  ((∀ (s : State) (c : ChanId) (ctx : Fin 16384) (e : EccFault), s.ready c → (s.view c).running = true →
    (s.view c).clsOpen = true → (s.view c).reasmAged ctx = true → (s.view c).flg Reg.CH_RX_CFG F.CH_RX_CFG_KEEP_BAD = false →
    completes (.reasmTimeout c ctx e) s c fun cx cx' =>
      cx'.partial_ ctx = false ∧ Sparse.get (fun _ => none) cx'.ch.ds.entry ctx.val = none ∧
      (e = .none → cx.ch.badRows = [] → (cx.chainFrom 63 (nbits (cx.partW ctx) 13 0)).2 = true →
        (∀ i ∈ (cx.chainFrom 63 (nbits (cx.partW ctx) 13 0)).1, (cx.cell i).lost = false) →
        cx'.ch.cnt Cnt.CH_CNT_DS_REASM_TIMEOUT = cx.ch.cnt Cnt.CH_CNT_DS_REASM_TIMEOUT + 1)) ∧
  (∀ (s : State) (c : ChanId) (ctx : Fin 16384) (e : EccFault), s.ready c → (s.view c).reasmAged ctx = false →
    completes (.reasmTimeout c ctx e) s c fun cx cx' => cx' = cx) ∧
  (∀ (s : State) (c : ChanId) (n : Fin 9), s.ready c →
    (Sparse.get (fun _ => Option.none) s.chans[c].us.pause n.val).isSome = true →
    completes (.pauseTimerExpiry c n) s c fun cx cx' =>
      Sparse.get (fun _ => Option.none) cx'.ch.us.pause n.val = none ∧
      cx'.flg Reg.CH_US_PAUSE_STATUS (pauseField n) = false ∧
      (∀ k, k ≠ n.val → Sparse.get (fun _ => Option.none) cx'.ch.us.pause k =
        Sparse.get (fun _ => Option.none) cx.ch.us.pause k) ∧
      (∀ o, o ≠ Reg.CH_US_PAUSE_STATUS → cx'.get o = cx.get o) ∧
      cx'.ch = { cx.ch with regs := cx'.ch.regs, us := { cx.ch.us with pause := cx'.ch.us.pause } } ∧ cx'.hl = cx.hl) ∧
  (∀ (s : State) (c : ChanId) (sync : Bool), s.ready c → (s.view c).lineOn = true →
    (sync = false → (s.view c).flg Reg.CH_DS_STATUS F.CH_DS_STATUS_FRAMER_SYNC = false) →
    completes (.dsWordAfterEnd ⟨c, sync⟩) s c fun cx cx' =>
      Cx.only cx cx' [Reg.CH_DS_STATUS] [Cnt.CH_CNT_DS_LF_TRUNC] ∧
      cx'.ch.cnt Cnt.CH_CNT_DS_LF_TRUNC = cx.ch.cnt Cnt.CH_CNT_DS_LF_TRUNC + 1 ∧
      cx'.flg Reg.CH_DS_STATUS F.CH_DS_STATUS_FRAMER_SYNC = sync ∧ cx'.guard = cx.guard) ∧
  ∀ (s : State) (c : ChanId) (level : Bool), s.ready c →
    completes (.sdLoss c level) s c fun cx cx' =>
      Cx.only cx cx' [Reg.CH_PORT_STATUS] [Cnt.CH_CNT_PMD_SD_LOSS] ∧
      cx'.flg Reg.CH_PORT_STATUS F.CH_PORT_STATUS_SD = level ∧
      cx'.ch.cnt Cnt.CH_CNT_PMD_SD_LOSS = cx.ch.cnt Cnt.CH_CNT_PMD_SD_LOSS +
        (if level = true ∨ cx.mode = ModeCode.disabled then 0 else 1))

/-- FW_BOOT from the boot ROM: with a valid accepted image whose SVN is not below the counter firmware is RUNNING in
that slot, BOOT is the next log record, the references of the ageing monitors are on record, and no channel that is
OFF changes its memories or counters; with no valid image in either slot the core stays in NO_IMAGE and nothing else
starts. Each read that the persist device answers with ERROR is counted (R564, R571, R573, R619, R648). FW_STAGE
stages an image whose header and signature hold and whose SVN does not fall below the counter; FW_WRITE writes it into
a slot neither running nor accepted, which holds no valid image until FW_WRITE_DONE; FW_ACTIVATE restarts into a valid
slot on trial; FW_READY makes the trial ready, and what waited for firmware in the channels is acted on; FW_REVERT
returns to the accepted slot, and FW_ACCEPT makes the trial the accepted image and raises the counter (R566 to R570,
R648). -/
def Obligations.FirmwareImagesAndBoot : Prop :=
  ((∀ (s : State) (d : BootDev), s.up → s.hl.fwState = FwState.bootRom → s.hl.fw.started = false →
    (if d.accepted then d.slotB else d.slotA).valid = true →
    d.counter.toNat ≤ (if d.accepted then d.slotB else d.slotA).svn.toNat →
    (∀ c : ChanId, (s.view c).actState = Act.off) →
    ∃ t, exec (.fwBoot (some d)) s = .next t ∧ t.pending = s.pending ∧ t.hl.fwState = FwState.running ∧
      t.hl.fwSlot = b2n d.accepted ∧ t.hl.fwCounter = d.counter.toNat ∧ t.hl.fw.started = true ∧
      t.hl.get Reg.HL_LOG_SEQ = (match s.hl.mb.psLog.getLast? with
        | some r => BitVec.ofNat 32 (leNat (r.take 4))
        | none => s.hl.get Reg.HL_LOG_SEQ) + 1 ∧
      t.hl.ageRefs ≠ [] ∧ (d.ageing ≠ [] → t.hl.ageRefs = d.ageing) ∧
      t.hl.cnt Cnt.HL_CNT_PS_ERR = s.hl.cnt Cnt.HL_CNT_PS_ERR + BitVec.ofNat 64 d.errors ∧
      ∀ c : ChanId, Chan.sameMems s.chans[c] t.chans[c] ∧ t.chans[c].cnts = s.chans[c].cnts) ∧
  ∀ (s : State) (d : BootDev), s.up → s.hl.fwState = FwState.bootRom → d.slotA.valid = false → d.slotB.valid = false →
    completesHl (.fwBoot (some d)) s fun h h' =>
      h'.fwState = FwState.noImage ∧
      h' = { h with regs := h'.regs, fw := h'.fw, cnts := h'.cnts, ageRefs := d.ageing } ∧
      (∀ o, o ≠ Reg.HL_FW_STATUS → h'.get o = h.get o) ∧ (∀ o, o ≠ Cnt.HL_CNT_PS_ERR → h'.cnt o = h.cnt o) ∧
      h'.cnt Cnt.HL_CNT_PS_ERR = h.cnt Cnt.HL_CNT_PS_ERR + BitVec.ofNat 64 d.errors) ∧
  ((∀ (s : State) (m : CmdHead), s.heads m 0x0401 → m.bad 0x0401 = false →
    (imageHeaderOk s.hl.fwImage = true → s.hl.fwCounter ≤ (imageOf s.hl.fwImage).svn →
      answeredHl (.fwStage m) s m
        (if Config.signatureOk s.hl.fwImage then MbStatus.ok else MbStatus.badSignature) [] true fun h h' =>
        h' = { h with fw := { h.fw with
          staged := if Config.signatureOk h.fwImage then some (imageOf h.fwImage) else none
          locked := Config.signatureOk h.fwImage } }) ∧
    (imageHeaderOk s.hl.fwImage = false → answeredHl (.fwStage m) s m MbStatus.badImage [] true fun h h' =>
      h' = { h with fw := { h.fw with staged := none, locked := false } })) ∧
  (∀ (s : State) (m : CmdHead) (b : Bool), s.heads m 0x0402 → m.bad 0x0402 = false →
    (s.hl.slotHeld (b2n b) = true →
      answeredHl (.fwWrite m b) s m MbStatus.badState [] true fun h h' => h' = h) ∧
    (s.hl.slotHeld (b2n b) = false → s.hl.fw.staged = none →
      answeredHl (.fwWrite m b) s m MbStatus.notStaged [] true fun h h' => h' = h) ∧
    (s.hl.slotHeld (b2n b) = false → ∀ i, s.hl.fw.staged = some i → s.hl.fw.writing = none →
      answeredHl (.fwWrite m b) s m MbStatus.ok [] true fun h h' =>
        h'.fw.writing = some (b2n b, i) ∧ (h'.fw.slot (b2n b)).valid = false ∧ (h'.fw.slot (b2n b)).torn = true ∧
        h'.fw.slot (b2n (!b)) = h.fw.slot (b2n (!b)) ∧ h'.fw.staged = h.fw.staged ∧ h' = { h with fw := h'.fw })) ∧
  (∀ (s : State) (b : Bool) (i : FwImage), s.up → s.hl.fw.writing = some (b2n b, i) →
    (completesHl (.fwWriteDone true) s fun h h' =>
      h'.fw.slot (b2n b) = i ∧ h'.fw.slot (b2n (!b)) = h.fw.slot (b2n (!b)) ∧ h'.fw.writing = none ∧
      h'.fw.staged = none ∧ h'.fw.locked = false) ∧
    completesHl (.fwWriteDone false) s fun h h' =>
      h'.fw.slotA = h.fw.slotA ∧ h'.fw.slotB = h.fw.slotB ∧ h'.fw.writing = none ∧ h'.fw.staged = none ∧
      h'.cnt Cnt.HL_CNT_PS_ERR = h.cnt Cnt.HL_CNT_PS_ERR + 1) ∧
  (∀ (s : State) (m : CmdHead) (b : Bool), s.heads m 0x0403 → m.bad 0x0403 = false → s.hl.deferred = [] →
    (s.fwActivateCheck (b2n b) = MbStatus.ok → s.hl.fw.started = true → completesHl (.fwActivate m b) s fun h h' =>
      h'.fwState = FwState.trial ∧ h'.fwSlot = b2n b ∧ h'.fw.ready = false ∧ h'.fwUp = false ∧
      h'.get Reg.HL_FW_VERSION = BitVec.ofNat 32 (h.fw.slot (b2n b)).version ∧
      h'.cnt Cnt.HL_CNT_FW_ACTIVATIONS = h.cnt Cnt.HL_CNT_FW_ACTIVATIONS + 1 ∧
      h'.get Reg.HL_MB_CMD_HEAD = h.get Reg.HL_MB_CMD_HEAD + 1) ∧
    (s.fwActivateCheck (b2n b) ≠ MbStatus.ok →
      answeredHl (.fwActivate m b) s m (s.fwActivateCheck (b2n b)) [] true fun h h' => h' = h)) ∧
  (∀ s : State, s.up → s.hl.deferred = [] → s.hl.fwState = FwState.trial → s.hl.fw.ready = false →
    (∃ t, exec .fwReady s = .next t ∧ t.pending = s.pending ∧ t.hl.fwState = FwState.trial ∧
      t.hl.fw = { s.hl.fw with ready := true } ∧ t.hl.fwUp = true ∧ t.hl.fwSlot = s.hl.fwSlot ∧ ∀ c : ChanId,
      ((s.view c).actState = Act.off → t.chans[c] = s.chans[c]) ∧
      ((s.view c).actState ≠ Act.off → s.chans[c].coreStopped = false →
        t.chans[c].act.to1 = false ∧ t.chans[c].act.to2 = false)) ∧
    (s.hl.fw.accepted < 2 → completesHl .fwRevert s fun h h' =>
      h'.fwState = FwState.restarting ∧ h'.fwSlot = h.fw.accepted ∧ h'.fw = h.fw ∧ h'.fwUp = false ∧
      h'.cnt Cnt.HL_CNT_FW_REVERTS = h.cnt Cnt.HL_CNT_FW_REVERTS + 1)) ∧
  (∀ s : State, s.up → s.hl.deferred = [] → s.hl.fwState = FwState.restarting →
    ∃ t, exec .fwReady s = .next t ∧ t.pending = s.pending ∧ t.hl.fwState = FwState.running ∧ t.hl.fwUp = true ∧
      t.hl.fwSlot = s.hl.fwSlot ∧ ∀ c : ChanId, (s.view c).actState = Act.off → t.chans[c] = s.chans[c]) ∧
  ∀ (s : State) (m : CmdHead), s.serving m 0x0404 → s.hl.deferred = [] →
    s.hl.fwState = FwState.trial → s.hl.fw.ready = true →
    answeredHl (.fwAccept m true) s m MbStatus.ok [] true (fun h h' =>
      h'.fwState = FwState.running ∧ h'.fw.accepted = h.fwSlot ∧
      h'.fw.counter = max h.fwCounter (h.fw.slot h.fwSlot).svn ∧ h'.fwSlot = h.fwSlot) ∧
    answeredHl (.fwAccept m false) s m MbStatus.persistErr [] true fun h h' => h' = h.inc Cnt.HL_CNT_PS_ERR)

/-! ### Downstream -/

/-- DS_CFG_WRITE takes effect in Disabled and leaves every register as it was in any other mode outside a handover
(R83). PARSE_CFG_WRITE, to CH_PARSE_CFG, CH_PARSE_TPID and CH_PARSE_UDP, likewise (R232). FRAG_AGE_OUT completes for
an expired entry, which becomes invalid, is counted in FRAG_AGED, no longer counts in VALID_COUNT and no longer holds
its slot; its other bytes and all other context memory stay. An entry that has not expired stays, and in Stop and
Halted every entry stays (R246, R247). FRAG_TABLE_DISABLE completes where the channel takes register writes: EN reads
0 and no entry of the table is valid (R248). TKEY_COMMIT completes where the channel takes register writes: the
committed key is the ten words of CH_HASH_TKEY, the first in its highest bits; the channel is otherwise as it was
(R283). -/
def Obligations.ConfigurationFragmentsAndHashKey : Prop :=
  ((∀ (s : State) (c : ChanId) (v : Word), s.takes c → s.chans[c].mode = ModeCode.disabled →
    completes (.dsCfgWrite c v) s c fun cx cx' =>
      Cx.only cx cx' [Reg.CH_DS_CFG] [] ∧
      cx'.fld Reg.CH_DS_CFG F.CH_DS_CFG_MODE = getF v F.CH_DS_CFG_MODE) ∧
  (∀ (s : State) (c : ChanId) (v : Word), s.takes c →
    s.chans[c].mode ≠ ModeCode.disabled → s.chans[c].mode ≠ ModeCode.handover →
    completes (.dsCfgWrite c v) s c fun cx cx' =>
      (∀ o, cx'.get o = cx.get o) ∧ cx'.ch.cnts = cx.ch.cnts ∧ Chan.sameMems cx.ch cx'.ch) ∧
  (∀ (s : State) (c : ChanId) (n : Fin 3) (v : Word), s.takes c → s.chans[c].mode = ModeCode.disabled →
    completes (.parseCfgWrite c n v) s c fun cx cx' =>
      Cx.only cx cx' [Reg.CH_PARSE_CFG + 4 * n.val] [] ∧
      cx'.get (Reg.CH_PARSE_CFG + 4 * n.val) =
        mergeWrite chRows (Reg.CH_PARSE_CFG + 4 * n.val) (cx.get (Reg.CH_PARSE_CFG + 4 * n.val)) v) ∧
  ∀ (s : State) (c : ChanId) (n : Fin 3) (v : Word), s.takes c →
    s.chans[c].mode ≠ ModeCode.disabled → s.chans[c].mode ≠ ModeCode.handover →
    completes (.parseCfgWrite c n v) s c fun cx cx' =>
      (∀ o, cx'.get o = cx.get o) ∧ cx'.ch.cnts = cx.ch.cnts ∧ Chan.sameMems cx.ch cx'.ch) ∧
  ((∀ (s : State) (c : ChanId) (i : Fin 1024), s.ready c → (s.view c).fragValid i = true →
    (s.view c).fragExpired i = true → s.chans[c].coreStopped = false → (s.view c).mode ≠ ModeCode.stop → (s.view c).mode ≠ ModeCode.halted →
    completes (.fragAgeOut c i) s c fun cx cx' =>
      cx'.fragValid i = false ∧
      (∀ a, a ≠ fragAddr i + 0x1F → Sparse.get zeroByte cx'.ch.ctxm a = Sparse.get zeroByte cx.ch.ctxm a) ∧
      Cx.regsBut cx cx' [Reg.CH_FRAG_STATUS, Reg.CH_SHEAF_FRAGS (cx.fragGen i)] [Cnt.CH_CNT_FRAG_AGED] ∧
      cx'.ch.cnt Cnt.CH_CNT_FRAG_AGED = cx.ch.cnt Cnt.CH_CNT_FRAG_AGED + 1 ∧
      cx'.fld Reg.CH_FRAG_STATUS F.CH_FRAG_STATUS_VALID_COUNT = cx.fld Reg.CH_FRAG_STATUS F.CH_FRAG_STATUS_VALID_COUNT - 1 ∧
      (0 < cx.frags (cx.fragGen i) → cx'.frags (cx.fragGen i) = cx.frags (cx.fragGen i) - 1) ∧
      cx'.ch = { cx.ch with regs := cx'.ch.regs, cnts := cx'.ch.cnts, ctxm := cx'.ch.ctxm } ∧ cx'.hl = cx.hl) ∧
  ∀ (s : State) (c : ChanId) (i : Fin 1024), s.ready c →
    ((s.view c).fragValid i = false ∨ (s.view c).fragExpired i = false ∨ s.chans[c].coreStopped = true ∨
      s.chans[c].mode ∈ [ModeCode.stop, ModeCode.halted]) →
    completes (.fragAgeOut c i) s c fun cx cx' => cx' = cx) ∧
  (∀ (s : State) (c : ChanId), s.takes c →
    completes (.fragTableDisable c) s c fun cx cx' =>
      cx'.flg Reg.CH_FRAG_CFG F.CH_FRAG_CFG_EN = false ∧ (∀ i < 1024, cx'.fragValid i = false) ∧
      (∀ o, o ≠ Reg.CH_FRAG_CFG → o ≠ Reg.CH_FRAG_STATUS → (∀ g < 4, o ≠ Reg.CH_SHEAF_FRAGS g) → cx'.get o = cx.get o) ∧
      (∀ a, (a < fragAddr 0 ∨ fragAddr 1024 ≤ a) → Sparse.get zeroByte cx'.ch.ctxm a = Sparse.get zeroByte cx.ch.ctxm a) ∧
      cx'.ch = { cx.ch with regs := cx'.ch.regs, ctxm := cx'.ch.ctxm } ∧ cx'.hl = cx.hl) ∧
  (∀ (s : State) (c : ChanId), s.takes c →
    completes (.tkeyCommit c) s c fun cx cx' =>
      cx' = { cx with ch := { cx.ch with tkey := cx'.ch.tkey } } ∧
      ∀ i < 10, BitVec.extractLsb' (32 * (9 - i)) 32 cx'.ch.tkey = cx.get (Reg.CH_HASH_TKEY i))

/-- LINE_FRAME_START, a marker while the framer reports Sync after a line frame that is over, whose header the next
marker cuts: a line frame begins, the equalisation delay is latched, and the guard leaves NOSYNC for CONFIRM with
count zero and no base (R87, R90, R150). FRAMER_SYNC_LOSS: the guard is in NOSYNC, the framer's sync bit reads 0, and
the line frame in progress is no longer delineated; the loss is counted when it is lost from ACCEPT. A gain of sync
shows in FRAMER_SYNC, and changes nothing else (R80, R87, R89, R92). -/
def Obligations.LineFramesAndSyncLoss : Prop :=
  (∀ (s : State) (c : ChanId) (x : LineIn), s.ready c → (s.view c).lineOn = true → s.chans[c].ds.cur = none →
    s.chans[c].disabling = false → s.chans[c].mode ≠ ModeCode.handover → (s.view c).dsMode ≠ DsMode.none →
    s.chans[c].pm.held = none → x.sync = true → x.header = none →
    completes (.lineFrameStart c x) s c fun cx cx' =>
      (∃ lf, cx'.ch.ds.cur = some lf ∧ lf.sfc = x.sfc.toNat ∧ lf.len = x.len ∧ lf.mode = cx.dsMode ∧
        lf.open_ = false ∧ lf.evald = false) ∧
      cx'.ch.us.eqd = (cx.get Reg.CH_ACT_EQD).toNat ∧
      cx'.ch.us.eqdOk = cx.flg Reg.CH_ACT_STATUS F.CH_ACT_STATUS_EQD_VALID ∧
      cx'.ch.cnt Cnt.CH_CNT_DS_LF_RX = cx.ch.cnt Cnt.CH_CNT_DS_LF_RX + 1 ∧
      (cx.guard = Guard.nosync → cx'.guard = Guard.confirm ∧ cx'.fld Reg.CH_DS_STATUS F.CH_DS_STATUS_COUNT = 0 ∧
        cx'.base = false) ∧
      (cx.guard ≠ Guard.nosync → cx'.guard = cx.guard) ∧
      (∀ o, o ≠ Reg.CH_DS_STATUS → cx'.get o = cx.get o) ∧ Chan.sameMems cx.ch cx'.ch ∧ cx'.hl = cx.hl) ∧
  ((∀ (s : State) (c : ChanId), s.ready c → (s.view c).lineOn = true →
    completes (.framerSyncLoss ⟨c, false⟩) s c fun cx cx' =>
      cx'.guard = Guard.nosync ∧ cx'.flg Reg.CH_DS_STATUS F.CH_DS_STATUS_FRAMER_SYNC = false ∧
      (∀ lf, cx'.ch.ds.cur = some lf → lf.open_ = false) ∧
      cx'.ch.cnt Cnt.CH_CNT_DS_SYNC_LOSS = cx.ch.cnt Cnt.CH_CNT_DS_SYNC_LOSS + (if cx.guard = Guard.accept then 1 else 0) ∧
      Chan.sameMems cx.ch cx'.ch) ∧
  ∀ (s : State) (c : ChanId), s.ready c → (s.view c).lineOn = true →
    completes (.framerSyncLoss ⟨c, true⟩) s c fun cx cx' =>
      cx' = cx.setf Reg.CH_DS_STATUS F.CH_DS_STATUS_FRAMER_SYNC 1)

/-- LINE_FRAME_START with a header, in CONFIRM: a line frame that passes and whose SFC follows a base counts up, and
the one that makes CONFIRM of them is accepted: ACCEPT, its SFC in CH_DS_SFC, and its envelopes taken from the payload
start on. Any other restarts the count, with itself as base if it passes (R85 to R87, R90, R93, R98). LINE_FRAME_START
with a header, in ACCEPT: a line frame out of sequence returns the guard to CONFIRM; one whose header fails is
discarded, and HDR_LOSS of them in a row lose sync; any other is accepted. The only structure of its map that names an
allocation of the channel is granted: its burst is placed at T_UP of the marker plus its start, to be built in time
(R87, R88, R91, R98, R150, R178, R181 to R185, R205). -/
def Obligations.LineFramesEvaluated : Prop :=
  ((∀ (s : State) (c : ChanId) (x : LineIn) (l : LineFrame) (w : DWord), s.frameArrives c x l w →
    (s.view c).guard = Guard.confirm → (s.view c).base = true → headerPasses x (s.view c).dsMode w = true →
    x.sfc.toNat = (l.sfc + 1) % 2 ^ 51 →
    max 1 ((s.view c).fld Reg.CH_DS_SYNC F.CH_DS_SYNC_CONFIRM) ≤
      (s.view c).fld Reg.CH_DS_STATUS F.CH_DS_STATUS_COUNT + 1 →
    completes (.lineFrameStart c x) s c fun cx cx' =>
      cx'.guard = Guard.accept ∧ cx'.base = false ∧ Cx.raised cx cx' Ev.dsSync ∧
      cx'.ch.cnt Cnt.CH_CNT_DS_LF_ACCEPTED = cx.ch.cnt Cnt.CH_CNT_DS_LF_ACCEPTED + 1 ∧
      cx'.get Reg.CH_DS_SFC_LO = BitVec.ofNat 32 x.sfc.toNat ∧
      cx'.get Reg.CH_DS_SFC_HI = BitVec.ofNat 32 (x.sfc.toNat / 2 ^ 32) ∧
      (cx.running = true → ∃ lf, cx'.ch.ds.cur = some lf ∧ lf.open_ = true ∧ lf.sfc = x.sfc.toNat ∧
        lf.pos = (readHeader cx.dsMode x.len w x.hec).start)) ∧
  (∀ (s : State) (c : ChanId) (x : LineIn) (l : LineFrame) (w : DWord), s.frameArrives c x l w →
    (s.view c).guard = Guard.confirm → (s.view c).base = true → headerPasses x (s.view c).dsMode w = true →
    x.sfc.toNat = (l.sfc + 1) % 2 ^ 51 →
    (s.view c).fld Reg.CH_DS_STATUS F.CH_DS_STATUS_COUNT + 1 <
      max 1 ((s.view c).fld Reg.CH_DS_SYNC F.CH_DS_SYNC_CONFIRM) →
    completes (.lineFrameStart c x) s c fun cx cx' =>
      cx'.guard = Guard.confirm ∧ cx'.base = true ∧
      cx'.fld Reg.CH_DS_STATUS F.CH_DS_STATUS_COUNT = cx.fld Reg.CH_DS_STATUS F.CH_DS_STATUS_COUNT + 1 ∧
      cx'.ch.cnt Cnt.CH_CNT_DS_LF_DISCARDED = cx.ch.cnt Cnt.CH_CNT_DS_LF_DISCARDED + 1 ∧
      cx'.ch.cnt Cnt.CH_CNT_DS_LF_ACCEPTED = cx.ch.cnt Cnt.CH_CNT_DS_LF_ACCEPTED ∧
      cx'.get Reg.CH_DS_SFC_LO = cx.get Reg.CH_DS_SFC_LO ∧ cx'.ch.us.bursts = cx.ch.us.bursts) ∧
  ∀ (s : State) (c : ChanId) (x : LineIn) (l : LineFrame) (w : DWord), s.frameArrives c x l w →
    (s.view c).guard = Guard.confirm → s.chans[c].ds.seed = none →
    ((s.view c).base = false ∨ headerPasses x (s.view c).dsMode w = false ∨ x.sfc.toNat ≠ (l.sfc + 1) % 2 ^ 51) →
    completes (.lineFrameStart c x) s c fun cx cx' =>
      cx'.guard = Guard.confirm ∧ cx'.base = headerPasses x cx.dsMode w ∧
      cx'.fld Reg.CH_DS_STATUS F.CH_DS_STATUS_COUNT = 0 ∧
      cx'.ch.cnt Cnt.CH_CNT_DS_FALSE_LOCK_REJECT =
        cx.ch.cnt Cnt.CH_CNT_DS_FALSE_LOCK_REJECT + (if cx.base then 1 else 0) ∧
      cx'.ch.cnt Cnt.CH_CNT_DS_LF_DISCARDED = cx.ch.cnt Cnt.CH_CNT_DS_LF_DISCARDED + 1) ∧
  ((∀ (s : State) (c : ChanId) (x : LineIn) (l : LineFrame) (w : DWord), s.frameArrives c x l w →
    (s.view c).guard = Guard.accept → x.sfc.toNat ≠ (l.sfc + 1) % 2 ^ 51 →
    completes (.lineFrameStart c x) s c fun cx cx' =>
      cx'.guard = Guard.confirm ∧ cx'.fld Reg.CH_DS_STATUS F.CH_DS_STATUS_COUNT = 0 ∧
      cx'.base = headerPasses x cx.dsMode w ∧ Cx.raised cx cx' Ev.dsSync ∧
      cx'.ch.cnt Cnt.CH_CNT_DS_SFC_DISCONT = cx.ch.cnt Cnt.CH_CNT_DS_SFC_DISCONT + 1 ∧
      cx'.ch.cnt Cnt.CH_CNT_DS_LF_DISCARDED = cx.ch.cnt Cnt.CH_CNT_DS_LF_DISCARDED + 1) ∧
  (∀ (s : State) (c : ChanId) (x : LineIn) (l : LineFrame) (w : DWord), s.frameArrives c x l w →
    (s.view c).guard = Guard.accept → x.sfc.toNat = (l.sfc + 1) % 2 ^ 51 → headerPasses x (s.view c).dsMode w = false →
    completes (.lineFrameStart c x) s c fun cx cx' =>
      cx'.ch.cnt Cnt.CH_CNT_DS_HDR_ERR = cx.ch.cnt Cnt.CH_CNT_DS_HDR_ERR + 1 ∧
      cx'.ch.cnt Cnt.CH_CNT_DS_LF_DISCARDED = cx.ch.cnt Cnt.CH_CNT_DS_LF_DISCARDED + 1 ∧
      if max 1 (cx.fld Reg.CH_DS_SYNC F.CH_DS_SYNC_HDR_LOSS) ≤ cx.fld Reg.CH_DS_STATUS F.CH_DS_STATUS_HDR_RUN + 1 then
        cx'.guard = Guard.confirm ∧ cx'.base = false ∧
        cx'.ch.cnt Cnt.CH_CNT_DS_SYNC_LOSS = cx.ch.cnt Cnt.CH_CNT_DS_SYNC_LOSS + 1
      else cx'.guard = Guard.accept ∧
        cx'.fld Reg.CH_DS_STATUS F.CH_DS_STATUS_HDR_RUN = cx.fld Reg.CH_DS_STATUS F.CH_DS_STATUS_HDR_RUN + 1 ∧
        cx'.ch.cnt Cnt.CH_CNT_DS_SYNC_LOSS = cx.ch.cnt Cnt.CH_CNT_DS_SYNC_LOSS) ∧
  (∀ (s : State) (c : ChanId) (x : LineIn) (l : LineFrame) (w : DWord), s.frameArrives c x l w →
    (s.view c).guard = Guard.accept → x.sfc.toNat = (l.sfc + 1) % 2 ^ 51 → headerPasses x (s.view c).dsMode w = true →
    completes (.lineFrameStart c x) s c fun cx cx' =>
      cx'.guard = Guard.accept ∧ cx'.fld Reg.CH_DS_STATUS F.CH_DS_STATUS_HDR_RUN = 0 ∧
      cx'.ch.cnt Cnt.CH_CNT_DS_LF_ACCEPTED = cx.ch.cnt Cnt.CH_CNT_DS_LF_ACCEPTED + 1 ∧
      cx'.get Reg.CH_DS_SFC_LO = BitVec.ofNat 32 x.sfc.toNat ∧
      cx'.get Reg.CH_DS_SFC_HI = BitVec.ofNat 32 (x.sfc.toNat / 2 ^ 32)) ∧
  ∀ (s : State) (c : ChanId) (x : LineIn) (l : LineFrame) (w : DWord) (e : MapEntry) (n : Nat), s.frameArrives c x l w →
    (s.view c).guard = Guard.accept → x.sfc.toNat = (l.sfc + 1) % 2 ^ 51 → headerPasses x (s.view c).dsMode w = true →
    s.chans[c].mode = ModeCode.service → s.chans[c].coreStopped = false → (s.view c).phase = Phase.run →
    (s.view c).flg Reg.CH_PWR_STATUS F.CH_PWR_STATUS_PAD_HELD = false → (s.view c).actState = Act.operation →
    (s.view c).dsMode = DsMode.g9807 → x.map = [e] → (readHeader (s.view c).dsMode x.len w x.hec).maps = 1 →
    e.hec = .ok →
    let a := alloc8 (e.raw.toNat % 2 ^ 64)
    let m := (s.view c).latchMarker
    let g : Grant := ⟨some n, a.report, a.msg, a.profile, a.start, a.size, (s.view c).grantCap a.profile (a.size * 4),
      false, a.id⟩
    let t := m.tUp (s.view c).time8.toNat + (a.start * (32 * m.bitQ) : Nat)
    (s.view c).slotOfAlloc a.id = some n → a.start + a.size ≤ 38880 →
    (s.view c).flg (Reg.CH_US_PROFILE a.profile) F.CH_US_PROFILE_VALID = true → grantFits 4 false true true g = true →
    m.nowQ + (m.horizon DsMode.g9807 : Int) ≤ t - m.fixedQ Reg.CH_TS_US_FIXED →
    completes (.lineFrameStart c x) s c fun cx cx' =>
      cx'.ch.cnt Cnt.CH_CNT_US_GRANTS = cx.ch.cnt Cnt.CH_CNT_US_GRANTS + 1 ∧
      ∃ b ∈ cx'.ch.us.bursts, b.grants = [g] ∧ b.sfc = x.sfc.toNat ∧ b.sn = false ∧ b.msg = a.msg ∧
        b.profile = a.profile ∧ b.sMed = t ∧ b.sIf = t - m.fixedQ Reg.CH_TS_US_FIXED ∧ b.built = .none ∧
        b.started = false ∧ b.on = false ∧
        b.wOn = t - (m.fld (Reg.CH_US_PROFILE a.profile) F.CH_US_PROFILE_PSB_LEN * 8 * m.bitQ : Nat) -
          (m.fld Reg.CH_US_LASER F.CH_US_LASER_ON_NS * nsQ : Nat) ∧
        b.wOff = t + (a.size * (32 * m.bitQ) : Nat) + (m.fld Reg.CH_US_LASER F.CH_US_LASER_OFF_NS * nsQ : Nat))

/-- ENVELOPE_RX in an accepted line frame of a running channel: an idle envelope and one for an unregistered port move
the delineation on and are counted; one for a registered port with a valid key waits for the cipher engine under its
context, with the seed of its line frame, and its header item has passed to the engine (R102, R105, R106, R113, R602).
CIPHER_RETURN: an envelope whose returned seed differs is discarded and counted, and late returns are counted too; one
whose seed agrees is stored behind the partial frame of its context (R114, R115, R605). -/
def Obligations.EnvelopesDelineatedAndStored : Prop :=
  ((∀ (s : State) (c : ChanId) (hdr counter : DWord) (p : List Byte) (e : EccFault) (lf : LineFrame), s.ready c →
    (s.view c).running = true → (s.view c).subStopped 6 = false → s.chans[c].ds.cur = some lf →
    lf.open_ = true → lf.flaggedAt lf.pos 8 = false → lf.mode ≠ DsMode.ext100 →
    lf.pos + 8 + nbits hdr.toNat 63 50 + padLen lf.mode (nbits hdr.toNat 63 50) ≤ lf.len →
    nbits hdr.toNat 47 32 = 0xFFFF →
    completes (.envelopeRx c hdr .ok counter p e) s c fun cx cx' =>
      cx' = (cx.setDs { cx.ch.ds with cur := some { lf with
        pos := lf.pos + 8 + nbits hdr.toNat 63 50 + padLen lf.mode (nbits hdr.toNat 63 50) } }).inc
          Cnt.CH_CNT_DS_ENV_IDLE) ∧
  (∀ (s : State) (c : ChanId) (hdr counter : DWord) (p : List Byte) (e : EccFault) (lf : LineFrame), s.ready c →
    (s.view c).running = true → (s.view c).subStopped 6 = false → (s.view c).filtering = false →
    s.chans[c].ds.cur = some lf → lf.open_ = true → lf.flaggedAt lf.pos 8 = false → lf.mode ≠ DsMode.ext100 →
    lf.pos + 8 + nbits hdr.toNat 63 50 + padLen lf.mode (nbits hdr.toNat 63 50) ≤ lf.len →
    nbits hdr.toNat 47 32 ≠ 0xFFFF → (s.view c).portCtx (nbits hdr.toNat 47 32) = none →
    completes (.envelopeRx c hdr .ok counter p e) s c fun cx cx' =>
      cx' = ((cx.setDs { cx.ch.ds with cur := some { lf with
        pos := lf.pos + 8 + nbits hdr.toNat 63 50 + padLen lf.mode (nbits hdr.toNat 63 50) } }).inc
          Cnt.CH_CNT_DS_ENV_RX).inc Cnt.CH_CNT_DS_ENV_OTHER) ∧
  ∀ (s : State) (c : ChanId) (hdr counter : DWord) (p : List Byte) (lf : LineFrame) (ctx : Nat), s.ready c →
    (s.view c).running = true → (s.view c).subStopped 6 = false → (s.view c).filtering = false →
    s.hl.pins.testEn = false → s.chans[c].badRows = [] → s.chans[c].ds.cur = some lf → lf.open_ = true →
    lf.flaggedAt lf.pos 8 = false → lf.mode ≠ DsMode.ext100 → s.chans[c].ds.cipherQ = [] → p ≠ [] → p.length = nbits hdr.toNat 63 50 →
    lf.pos + 8 + p.length + padLen lf.mode p.length ≤ lf.len →
    nbits hdr.toNat 47 32 ≠ 0xFFFF → (s.view c).portCtx (nbits hdr.toNat 47 32) = some ctx →
    (nbits hdr.toNat 49 48 = 1 ∨ nbits hdr.toNat 49 48 = 2) →
    (s.view c).keyValid (nbits ((s.view c).ctxLe ctx 0 8) 15 8) (nbits hdr.toNat 49 48) = true →
    completes (.envelopeRx c hdr .ok counter p .none) s c fun cx cx' =>
      (∃ i, cx'.ch.ds.cipherQ = [i] ∧ i.enc = true ∧ i.ctx = ctx ∧ i.port = nbits hdr.toNat 47 32 ∧
        i.key = nbits hdr.toNat 49 48 ∧ i.last = nbit hdr.toNat 13 ∧ i.payload = p ∧
        i.seedA = BitVec.ofNat 64 lf.sfc ∧ i.epoch = cx.epoch ∧
        cx'.ch.cpReq = some (1, cpHeader (nbits (cx.ctxLe ctx 0 8) 15 8) i.key false lf.mode p.length i.seedA i.seedB)) ∧
      cx'.ch = { cx.ch with ds := cx'.ch.ds, cnts := cx'.ch.cnts, cpReq := cx'.ch.cpReq } ∧ cx'.hl = cx.hl ∧
      ∀ o, cx'.ch.cnt o = cx.ch.cnt o + (if o = Cnt.CH_CNT_DS_ENV_RX then 1 else 0)) ∧
  ((∀ (s : State) (c : ChanId) (a : DWord) (b : Word) (plain : List Byte) (late : Nat) (e : EccFault) (i : CipherItem),
    s.ready c → (s.view c).finishing = true → s.chans[c].ds.cipherQ = [i] → i.enc = true →
    (a ≠ i.seedA ∨ b ≠ i.seedB) →
    completes (.cipherReturn c a b plain false late e) s c fun cx cx' =>
      cx'.ch.ds = { cx.ch.ds with cipherQ := [] } ∧ Chan.sameMems cx.ch cx'.ch ∧ cx'.hl = cx.hl ∧
      cx'.ch.cnt Cnt.CH_CNT_DS_CIPHER_MISMATCH = cx.ch.cnt Cnt.CH_CNT_DS_CIPHER_MISMATCH + 1 ∧
      cx'.ch.cnt Cnt.CH_CNT_CP_LATE = cx.ch.cnt Cnt.CH_CNT_CP_LATE + BitVec.ofNat 64 late) ∧
  ∀ (s : State) (c : ChanId) (plain : List Byte) (i : CipherItem), s.appends c i plain → i.last = false →
    completes (.cipherReturn c i.seedA i.seedB plain false 0 .none) s c fun cx cx' =>
      cx'.partLen i.ctx = cx.partLen i.ctx + plain.length ∧ cx'.partial_ i.ctx = true ∧
      cx'.ch.ds = { cx.ch.ds with cipherQ := [], entry := cx'.ch.ds.entry, resume := cx'.ch.ds.resume } ∧
      (∀ k, k ≠ i.ctx → Sparse.get (fun _ => none) cx'.ch.ds.entry k = Sparse.get (fun _ => none) cx.ch.ds.entry k) ∧
      cx'.hl = cx.hl ∧
      (∀ a, Sparse.get zeroByte cx'.ch.buf a =
        if h : 256 * nbits (cx.partW i.ctx) 27 14 + cx.partLen i.ctx % 256 ≤ a ∧
            a - (256 * nbits (cx.partW i.ctx) 27 14 + cx.partLen i.ctx % 256) < plain.length
        then plain[a - (256 * nbits (cx.partW i.ctx) 27 14 + cx.partLen i.ctx % 256)]
        else Sparse.get zeroByte cx.ch.buf a) ∧
      (∀ o, cx'.get o = cx.get o) ∧ cx'.ch.cnts = cx.ch.cnts ∧ cx'.ch.tree = cx.ch.tree)

/-- CIPHER_RETURN of the last fragment of a frame closes it: its context holds no partial frame then. One with a bad
FCS or shorter than 64 bytes is counted and goes nowhere. One that is malformed, where the action is to drop, is
counted under its cause and goes nowhere. One that has no tree is counted and dropped (R119, R123 to R125, R235, R237,
R258, R275). CIPHER_RETURN of the last fragment of a frame whose walk ends at a valid rule that delivers it to an
enabled receive queue, one that holds frames already: the frame is the queue's last, with its bytes, its context and
the rule's MARK, and it counts in the rule and in the decision context (R124, R256 to R260, R264 to R268, R271 to
R277, R317). -/
def Obligations.FramesClosedAndDelivered : Prop :=
  ((∀ (s : State) (c : ChanId) (i : CipherItem) (plain full : List Byte) (en : Entry), s.closes c i plain full en →
    (full.length < 64 ∨ fcsOk full = false) → (s.view c).flg Reg.CH_RX_CFG F.CH_RX_CFG_KEEP_BAD = false →
    completes (.cipherReturn c i.seedA i.seedB plain false 0 .none) s c fun cx cx' =>
      let k := if full.length < 64 then Cnt.CH_CNT_DS_RUNT else Cnt.CH_CNT_DS_FCS_ERR
      cx'.partial_ i.ctx = false ∧ Sparse.get (fun _ => none) cx'.ch.ds.entry i.ctx = none ∧
      cx'.ch.cnt k = cx.ch.cnt k + 1 ∧ cx'.ch.cnt Cnt.CH_CNT_DS_FRAMES_OK = cx.ch.cnt Cnt.CH_CNT_DS_FRAMES_OK ∧
      cx'.ch.rings = cx.ch.rings ∧ cx'.hl.core = cx.hl.core) ∧
  (∀ (s : State) (c : ChanId) (i : CipherItem) (plain full : List Byte) (en : Entry), s.closes c i plain full en →
    Cx.goodFrame full en (s.view c) → ((s.view c).parsed full).cause ≠ 0 → (s.view c).malAction false = 0 →
    completes (.cipherReturn c i.seedA i.seedB plain false 0 .none) s c fun cx cx' =>
      let k := Cnt.CH_CNT_PARSE_DS_TRUNC + 8 * ((cx.parsed full).cause - 1)
      cx'.partial_ i.ctx = false ∧ Sparse.get (fun _ => none) cx'.ch.ds.entry i.ctx = none ∧
      cx'.ch.cnt k = cx.ch.cnt k + 1 ∧
      cx'.ch.cnt Cnt.CH_CNT_DS_FRAMES_OK = cx.ch.cnt Cnt.CH_CNT_DS_FRAMES_OK + 1 ∧
      cx'.ch.cnt Cnt.CH_CNT_DS_BYTES_OK = cx.ch.cnt Cnt.CH_CNT_DS_BYTES_OK + BitVec.ofNat 64 full.length ∧
      cx'.ch.rings = cx.ch.rings ∧ cx'.hl.core = cx.hl.core) ∧
  ∀ (s : State) (c : ChanId) (i : CipherItem) (plain full : List Byte) (en : Entry), s.closes c i plain full en →
    Cx.goodFrame full en (s.view c) → ((s.view c).parsed full).cause = 0 → ((s.view c).parsed full).frag = false →
    ((s.view c).decides full en).walk = .noTree →
    completes (.cipherReturn c i.seedA i.seedB plain false 0 .none) s c fun cx cx' =>
      cx'.partial_ i.ctx = false ∧ Sparse.get (fun _ => none) cx'.ch.ds.entry i.ctx = none ∧
      cx'.ch.cnt Cnt.CH_CNT_CLS_NO_TREE = cx.ch.cnt Cnt.CH_CNT_CLS_NO_TREE + 1 ∧
      cx'.ch.cnt Cnt.CH_CNT_CLS_DROP = cx.ch.cnt Cnt.CH_CNT_CLS_DROP + 1 ∧
      cx'.ch.cnt Cnt.CH_CNT_DS_FRAMES_OK = cx.ch.cnt Cnt.CH_CNT_DS_FRAMES_OK + 1 ∧
      cx'.ch.rings = cx.ch.rings ∧ cx'.hl.core = cx.hl.core) ∧
  (∀ (s : State) (c : ChanId) (i : CipherItem) (plain full : List Byte) (en : Entry) (r q : Nat) (x : ActStep),
    s.closes c i plain full en → Cx.goodFrame full en (s.view c) → ((s.view c).parsed full).cause = 0 →
    ((s.view c).parsed full).frag = false → ((s.view c).decides full en).walk = .rule r →
    ((s.view c).decides full en).act = some x → r < 8192 → x.ctx < 16384 → x.good = true → nbit x.c0 0 = true →
    nbits x.c0 17 16 ≠ 3 → x.want = [⟨.rx q, false, false, false⟩] → x.indBad = false → x.noMirror = false →
    (s.view c).qEn false q = true → ((s.view c).rxq q).frames ≠ [] →
    completes (.cipherReturn c i.seedA i.seedB plain false 0 .none) s c fun cx cx' =>
      cx'.partial_ i.ctx = false ∧
      (∃ d, (cx'.rxq q).frames = (cx.rxq q).frames ++ [d] ∧ d.frame.cell = nbits (cx.partW i.ctx) 13 0 ∧
        d.frame.len = full.length ∧ d.frame.ctx = en.ctx ∧ d.frame.port = en.port ∧ d.frame.rule = r ∧
        d.status = CplStatus.ok ∧ d.info = x.mark ∧ d.mirror = false ∧ d.copy = false) ∧
      cx'.frameBytes (nbits (cx.partW i.ctx) 13 0) full.length = full ∧
      cx'.ch.cnt Cnt.CH_CNT_CLS_DS_WALKS = cx.ch.cnt Cnt.CH_CNT_CLS_DS_WALKS + 1 ∧
      cx'.ch.cnt Cnt.CH_CNT_DS_FRAMES_OK = cx.ch.cnt Cnt.CH_CNT_DS_FRAMES_OK + 1 ∧
      cx'.ch.cnt Cnt.CH_CNT_CLS_DROP = cx.ch.cnt Cnt.CH_CNT_CLS_DROP ∧
      cx'.ruleLe r 0x10 8 = (cx.ruleLe r 0x10 8 + 1) % 2 ^ 64 ∧
      cx'.ruleLe r 0x18 8 = (cx.ruleLe r 0x18 8 + full.length) % 2 ^ 64 ∧
      cx'.ctxLe x.ctx 0x20 8 = (cx.ctxLe x.ctx 0x20 8 + 1) % 2 ^ 64 ∧ cx'.hl = cx.hl)

/-! ### The classifier, sheaves and the Granary -/

/-- KEY_PROFILE_WRITE and TREE_SEL_WRITE: a register of a slot in FREE or BUILD takes the write by its access types.
One to a register of any other slot is discarded: the register, and everything else of the channel, is as it was, and
a write that would have changed it raises the configuration event. REGISTER_WRITE to the register's address does the
same (R231, R259). -/
def Obligations.SlotRegistersWritable : Prop :=
  (∀ (s : State) (c : ChanId) (off : BitVec 16) (v : Word) (g : Nat), s.takes c →
    slotOfReg off.toNat = some g → (s.view c).slotOpen g = true →
    (keyProfileReg off.toNat = true → completes (.keyProfileWrite c off v) s c fun cx cx' =>
      Cx.only cx cx' [off.toNat] [] ∧
      cx'.get off.toNat = mergeWrite chRows off.toNat (cx.get off.toNat) v) ∧
    (treeSelReg off.toNat = true → completes (.treeSelWrite c off v) s c fun cx cx' =>
      Cx.only cx cx' [off.toNat] [] ∧
      cx'.get off.toNat = mergeWrite chRows off.toNat (cx.get off.toNat) v)) ∧
  (∀ (s : State) (c : ChanId) (off : BitVec 16) (v : Word) (g : Nat), s.takes c →
    slotOfReg off.toNat = some g → (s.view c).slotOpen g = false →
    (keyProfileReg off.toNat = true → completes (.keyProfileWrite c off v) s c fun cx cx' =>
      Cx.onlyEv cx cx' [] [] ∧
      (mergeWrite chRows off.toNat (cx.get off.toNat) v ≠ cx.get off.toNat → Cx.raised cx cx' Ev.config)) ∧
    (treeSelReg off.toNat = true → completes (.treeSelWrite c off v) s c fun cx cx' =>
      Cx.onlyEv cx cx' [] [] ∧
      (mergeWrite chRows off.toNat (cx.get off.toNat) v ≠ cx.get off.toNat → Cx.raised cx cx' Ev.config))) ∧
  ∀ (s : State) (c : ChanId) (addr : BitVec 21) (off : BitVec 16) (v : DWord) (g : Nat), s.takes c →
    addr.toNat = 0x40000 + 0x10000 * c.val + off.toNat → off.toNat % 4 = 0 → slotOfReg off.toNat = some g →
    (keyProfileReg off.toNat = true →
      exec (.registerWrite addr false v) s = exec (.keyProfileWrite c off (BitVec.extractLsb' 0 32 v)) s) ∧
    (treeSelReg off.toNat = true →
      exec (.registerWrite addr false v) s = exec (.treeSelWrite c off (BitVec.extractLsb' 0 32 v)) s)

/-- BUILD, ABANDON, RELEASE and DISARM of a slot in the state that accepts them: the slot enters BUILD, FREE, FREE
and, from ARMED, BUILD with no arm held; the result is OK, and no other slot changes (R292). While BUSY is 1, and at
the source of a handover until it has left, every sheaf command is refused with BUSY, and one from a state that does
not list it with BAD_STATE: the refusal is counted, and no slot changes. One that meets an armed commit is refused
with BUSY too, and the armed slot is CURRENT (R292, R293). -/
def Obligations.SheafCommandsAnswered : Prop :=
  (∀ (s : State) (c : ChanId) (g : Fin 4), s.takes c → (s.view c).sheafBusy = false → (s.view c).leaving = false →
    (s.view c).armDue = false →
    ((s.view c).slotState g = SlotState.free → completes (.build c g) s c fun cx cx' =>
      Cx.only cx cx' [Reg.CH_SHEAF_STATUS] [] ∧ cx'.slotState g = SlotState.build ∧
      cx'.fld Reg.CH_SHEAF_STATUS F.CH_SHEAF_STATUS_RESULT = SheafResult.ok ∧
      ∀ k : Fin 4, k ≠ g → cx'.slotState k = cx.slotState k) ∧
    ((s.view c).slotState g = SlotState.build → completes (.abandon c g) s c fun cx cx' =>
      Cx.only cx cx' [Reg.CH_SHEAF_STATUS] [] ∧ cx'.slotState g = SlotState.free ∧
      cx'.fld Reg.CH_SHEAF_STATUS F.CH_SHEAF_STATUS_RESULT = SheafResult.ok ∧
      ∀ k : Fin 4, k ≠ g → cx'.slotState k = cx.slotState k) ∧
    ((s.view c).slotState g = SlotState.drained → (s.view c).armNames g = false →
      completes (.release c g) s c fun cx cx' =>
        Cx.only cx cx' [Reg.CH_SHEAF_STATUS] [] ∧ cx'.slotState g = SlotState.free ∧
        cx'.fld Reg.CH_SHEAF_STATUS F.CH_SHEAF_STATUS_RESULT = SheafResult.ok ∧
        ∀ k : Fin 4, k ≠ g → cx'.slotState k = cx.slotState k) ∧
    (((s.view c).slotState g = SlotState.armed ∨ (s.view c).armNames g = true) →
      completes (.disarm c g) s c fun cx cx' =>
        Cx.only cx cx' [Reg.CH_SHEAF_STATUS, Reg.CH_SHEAF_ARM] [] ∧ cx'.armValid = false ∧
        cx'.slotState g = (if cx.slotState g = SlotState.armed then SlotState.build else cx.slotState g) ∧
        cx'.fld Reg.CH_SHEAF_STATUS F.CH_SHEAF_STATUS_RESULT = SheafResult.ok ∧
        ∀ k : Fin 4, k ≠ g → cx'.slotState k = cx.slotState k)) ∧
  ((∀ (s : State) (c : ChanId) (g : Fin 4) (i : Instr), s.takes c →
    i ∈ [Instr.build c g, .abandon c g, .disarm c g, .commit c g, .release c g] →
    ((s.view c).sheafBusy = true ∨ (s.view c).leaving = true) → (s.view c).armDue = false →
    completes i s c fun cx cx' =>
      Cx.onlyEv cx cx' [Reg.CH_SHEAF_STATUS] [Cnt.CH_CNT_SHEAF_REFUSED] ∧
      cx'.fld Reg.CH_SHEAF_STATUS F.CH_SHEAF_STATUS_RESULT = SheafResult.busy ∧ (∀ k : Fin 4, cx'.slotState k = cx.slotState k) ∧
      cx'.ch.cnt Cnt.CH_CNT_SHEAF_REFUSED = cx.ch.cnt Cnt.CH_CNT_SHEAF_REFUSED + 1) ∧
  (∀ (s : State) (c : ChanId) (g : Fin 4) (i : Instr), s.takes c →
    i ∈ [Instr.build c g, .abandon c g, .disarm c g, .commit c g, .release c g] → (s.view c).armDue = true →
    (s.view c).fld Reg.CH_SHEAF_ARM F.CH_SHEAF_ARM_SLOT < 4 →
    completes i s c fun cx cx' =>
      cx'.armValid = false ∧ cx'.slotState (cx.fld Reg.CH_SHEAF_ARM F.CH_SHEAF_ARM_SLOT) = SlotState.current ∧
      cx'.fld Reg.CH_SHEAF_STATUS F.CH_SHEAF_STATUS_RESULT = SheafResult.busy ∧
      cx'.ch.cnt Cnt.CH_CNT_SHEAF_REFUSED = cx.ch.cnt Cnt.CH_CNT_SHEAF_REFUSED + 1) ∧
  ∀ (s : State) (c : ChanId) (g : Fin 4) (i : Instr), s.takes c → (s.view c).sheafBusy = false →
    (s.view c).leaving = false → (s.view c).armDue = false →
    (i = .build c g ∧ (s.view c).slotState g ≠ SlotState.free ∨ i = .abandon c g ∧ (s.view c).slotState g ≠ SlotState.build ∨
      i = .release c g ∧ (s.view c).slotState g ≠ SlotState.drained ∨
      i = .commit c g ∧ ((s.view c).armValid = true ∨ (s.view c).slotState g ∉ [SlotState.build, SlotState.draining, SlotState.drained]) ∨
      i = .disarm c g ∧ (s.view c).slotState g ≠ SlotState.armed ∧ (s.view c).armNames g = false) →
    completes i s c fun cx cx' =>
      Cx.onlyEv cx cx' [Reg.CH_SHEAF_STATUS] [Cnt.CH_CNT_SHEAF_REFUSED] ∧
      cx'.fld Reg.CH_SHEAF_STATUS F.CH_SHEAF_STATUS_RESULT = SheafResult.badState ∧
      (∀ k : Fin 4, cx'.slotState k = cx.slotState k) ∧
      cx'.ch.cnt Cnt.CH_CNT_SHEAF_REFUSED = cx.ch.cnt Cnt.CH_CNT_SHEAF_REFUSED + 1)

/-- COMMIT: from BUILD the root check begins and BUSY reads 1; from DRAINING or DRAINED the slot is CURRENT at once.
ROOT_CHECK_DONE ends the check that runs, and the next one waiting runs: with a fault the slot stays and the result is
CHECK_FAIL; with none the slot is CURRENT, the slot it replaces DRAINING, and the tick of the commit is recorded, or,
for an arm in time, the slot is ARMED; an uncorrectable error in a root node that it reads halts the channel, and the
slot stays (R290, R292, R294, R295, R300). ARMED_COMMIT: at T the armed slot is CURRENT and the arm is cleared; before
T nothing changes. SLOT_DRAINED: a DRAINING slot that nothing refers to is DRAINED; another keeps its state. At the
source of a handover that has frozen it no slot drains (R301, R305, R310). -/
def Obligations.CommitsCheckedArmedAndDrained : Prop :=
  ((∀ (s : State) (c : ChanId) (g : Fin 4), s.takes c → (s.view c).sheafBusy = false → (s.view c).leaving = false →
    (s.view c).armValid = false → (s.view c).slotState g = SlotState.build →
    completes (.commit c g) s c fun cx cx' =>
      cx'.sheafBusy = true ∧ cx'.ch.checks = cx.ch.checks ++ [(g.val, none)] ∧ (∀ k : Fin 4, cx'.slotState k = cx.slotState k) ∧
      (∀ o, o ≠ Reg.CH_SHEAF_STATUS → cx'.get o = cx.get o) ∧
      cx' = { cx with ch := { cx.ch with regs := cx'.ch.regs, checks := cx'.ch.checks } }) ∧
  (∀ (s : State) (c : ChanId) (g : Fin 4), s.takes c → (s.view c).sheafBusy = false → (s.view c).leaving = false →
    (s.view c).armValid = false → (s.view c).slotState g ∈ [SlotState.draining, SlotState.drained] →
    completes (.commit c g) s c fun cx cx' =>
      cx'.slotState g = SlotState.current ∧ cx'.curSlot = some g.val ∧
      cx'.ch.cnt Cnt.CH_CNT_SHEAF_COMMITS = cx.ch.cnt Cnt.CH_CNT_SHEAF_COMMITS + 1 ∧
      Cx.onlyEv cx cx' [Reg.CH_SHEAF_STATUS, Reg.CH_SHEAF_LAST_T_LO, Reg.CH_SHEAF_LAST_T_HI] [Cnt.CH_CNT_SHEAF_COMMITS]) ∧
  (∀ (s : State) (c : ChanId) (g : Fin 4) (arm : Option (DWord × Bool)) (rest : List (Nat × Option (DWord × Bool))),
    s.ready c → s.chans[c].checks = (g.val, arm) :: rest → (s.view c).frozen = false → s.chans[c].badRows = [] →
    (∃ t < 8, (s.view c).rootFault g t ≠ 0) →
    completes (.rootCheckDone ⟨c, .none⟩) s c fun cx cx' =>
      cx'.sheafBusy = !rest.isEmpty ∧ cx'.ch.checks = rest ∧ (∀ k : Fin 4, cx'.slotState k = cx.slotState k) ∧
      cx'.fld Reg.CH_SHEAF_STATUS F.CH_SHEAF_STATUS_RESULT = SheafResult.checkFail ∧
      (∃ t < 8, cx'.get Reg.CH_SHEAF_CHECK = BitVec.ofNat 32 (t + cx.rootFault g t * 16) ∧ cx.rootFault g t ≠ 0 ∧
        ∀ k < t, cx.rootFault g k = 0) ∧
      cx'.ch.cnt Cnt.CH_CNT_SHEAF_REFUSED = cx.ch.cnt Cnt.CH_CNT_SHEAF_REFUSED + 1) ∧
  (∀ (s : State) (c : ChanId) (g : Fin 4) (arm : Option (DWord × Bool)) (rest : List (Nat × Option (DWord × Bool)))
    (n : Fin 65536), s.ready c → s.chans[c].checks = (g.val, arm) :: rest → (s.view c).frozen = false →
    s.chans[c].badRows = [] → n.val ∈ (s.view c).checkNodes g →
    (s.chans[c].mode = ModeCode.acquire ∨ s.chans[c].mode = ModeCode.service) →
    completes (.rootCheckDone ⟨c, .treeUe n⟩) s c fun cx cx' =>
      cx'.mode = ModeCode.halted ∧ cx'.sheafBusy = !rest.isEmpty ∧ cx'.ch.checks = rest ∧
      (∀ k : Fin 4, cx'.slotState k = cx.slotState k)) ∧
  (∀ (s : State) (c : ChanId) (g : Fin 4) (t : DWord) (rest : List (Nat × Option (DWord × Bool))), s.ready c →
    s.chans[c].checks = (g.val, some (t, false)) :: rest → (s.view c).frozen = false → s.chans[c].badRows = [] →
    (∀ t < 8, (s.view c).rootFault g t = 0) → (s.view c).armValid = false → (s.view c).slotState g = SlotState.build →
    s.hl.stu.tick.toNat < t.toNat →
    completes (.rootCheckDone ⟨c, .none⟩) s c fun cx cx' =>
      cx'.sheafBusy = !rest.isEmpty ∧ cx'.ch.checks = rest ∧ cx'.slotState g = SlotState.armed ∧
      cx'.armNames g = true ∧ cx'.armTime = t.toNat ∧ cx'.curSlot = cx.curSlot ∧
      (∀ k : Fin 4, k ≠ g → cx'.slotState k = cx.slotState k) ∧
      cx'.fld Reg.CH_SHEAF_STATUS F.CH_SHEAF_STATUS_RESULT = SheafResult.ok) ∧
  ∀ (s : State) (c : ChanId) (g : Fin 4) (rest : List (Nat × Option (DWord × Bool))), s.ready c →
    s.chans[c].checks = (g.val, none) :: rest → (s.view c).frozen = false →
    s.chans[c].badRows = [] → (∀ t < 8, (s.view c).rootFault g t = 0) →
    completes (.rootCheckDone ⟨c, .none⟩) s c fun cx cx' =>
      cx'.sheafBusy = !rest.isEmpty ∧ cx'.ch.checks = rest ∧ cx'.slotState g = SlotState.current ∧ cx'.curSlot = some g.val ∧
      (∀ k : Fin 4, k ≠ g → cx'.slotState k = if cx.curSlot = some k.val then SlotState.draining else cx.slotState k) ∧
      cx'.get Reg.CH_SHEAF_LAST_T_LO = BitVec.extractLsb' 0 32 cx.hl.stu.tick ∧
      cx'.get Reg.CH_SHEAF_LAST_T_HI = BitVec.extractLsb' 32 32 cx.hl.stu.tick ∧
      Chan.sameMems cx.ch cx'.ch) ∧
  ((∀ (s : State) (c : ChanId), s.ready c → (s.view c).armValid = true → (s.view c).mode ≠ ModeCode.stop →
    (s.view c).mode ≠ ModeCode.halted → (s.view c).frozen = false → (s.view c).fld Reg.CH_SHEAF_ARM F.CH_SHEAF_ARM_SLOT < 4 →
    (s.view c).armTime ≤ s.hl.stu.tick.toNat →
    completes (.armedCommit c) s c fun cx cx' =>
      cx'.armValid = false ∧ cx'.curSlot = some (cx.fld Reg.CH_SHEAF_ARM F.CH_SHEAF_ARM_SLOT) ∧
      cx'.slotState (cx.fld Reg.CH_SHEAF_ARM F.CH_SHEAF_ARM_SLOT) = SlotState.current ∧
      cx'.get Reg.CH_SHEAF_LAST_T_LO = BitVec.extractLsb' 0 32 cx.hl.stu.tick ∧
      Cx.onlyEv cx cx' [Reg.CH_SHEAF_ARM, Reg.CH_SHEAF_STATUS, Reg.CH_SHEAF_LAST_T_LO, Reg.CH_SHEAF_LAST_T_HI]
        [Cnt.CH_CNT_SHEAF_COMMITS]) ∧
  (∀ (s : State) (c : ChanId), s.ready c → s.hl.stu.tick.toNat < (s.view c).armTime →
    completes (.armedCommit c) s c fun cx cx' => cx' = cx) ∧
  (∀ (s : State) (c : ChanId) (g : Fin 4), s.ready c → (s.view c).slotState g = SlotState.draining →
    (s.view c).frozen = false → (s.view c).inflight g = 0 → (s.view c).pins g = 0 → (s.view c).frags g = 0 →
    completes (.slotDrained c g) s c fun cx cx' =>
      cx'.slotState g = SlotState.drained ∧ Cx.onlyEv cx cx' [Reg.CH_SHEAF_STATUS] [] ∧
      ∀ k : Fin 4, k ≠ g → cx'.slotState k = cx.slotState k) ∧
  ∀ (s : State) (c : ChanId) (g : Fin 4), s.ready c →
    ((s.view c).slotState g ≠ SlotState.draining ∨ (s.view c).inflight g ≠ 0 ∨ (s.view c).pins g ≠ 0 ∨
      (s.view c).frags g ≠ 0 ∨ (s.view c).frozen = true) →
    completes (.slotDrained c g) s c fun cx cx' => cx' = cx)

/-- GLEAN_GO starts a glean: GLEAN mode, the scan at cell 0 with an empty ring; while one runs it has no effect.
TO_BITMAP: BITMAP mode, no glean and no ring. Neither touches the cell table (R328, R329). GLEAN_DONE over a
consistent cell table with no bank marked for loss: RING mode, the glean is over and counted, and the ring holds the
IDs it held and behind them every free cell from the scan position on, in ascending order; FREE_COUNT is what the ring
holds, and the cell table is as it was (R327, R330, R332). -/
def Obligations.GleansRunAndCollect : Prop :=
  ((∀ (s : State) (c : ChanId), s.takes c → (s.view c).gleaning = false →
    completes (.gleanGo c) s c fun cx cx' =>
      cx'.grMode = GrMode.glean ∧ cx'.gleaning = true ∧ cx'.grPos = 0 ∧ cx'.ch.gr.ring = [] ∧
      cx'.freeCount = cx.freeCount ∧ cx'.reserved = cx.reserved ∧
      (∀ o, o ≠ Reg.CH_GR_STATUS → o ≠ Reg.CH_GR_GLEAN → cx'.get o = cx.get o) ∧
      cx' = { cx with ch := { cx.ch with regs := cx'.ch.regs, gr := cx'.ch.gr } }) ∧
  (∀ (s : State) (c : ChanId), s.takes c → (s.view c).gleaning = true →
    completes (.gleanGo c) s c fun cx cx' => cx' = cx) ∧
  ∀ (s : State) (c : ChanId), s.takes c →
    completes (.toBitmap c) s c fun cx cx' =>
      cx'.grMode = GrMode.bitmap ∧ cx'.gleaning = false ∧ cx'.ch.gr.ring = [] ∧ cx'.freeCount = cx.freeCount ∧
      cx'.reserved = cx.reserved ∧ (∀ o, o ≠ Reg.CH_GR_STATUS → o ≠ Reg.CH_GR_GLEAN → cx'.get o = cx.get o) ∧
      cx' = { cx with ch := { cx.ch with regs := cx'.ch.regs, gr := cx'.ch.gr } }) ∧
  (∀ (s : State) (c : ChanId), s.ready c → (s.view c).gleaning = true → (s.view c).mode ≠ ModeCode.stop →
    (s.view c).mode ≠ ModeCode.halted → s.chans[c].gr.loss = [] → s.chans[c].badRows = [] →
    (s.view c).grPos < numCells →
    s.chans[c].gr.ring.length +
      ((List.range numCells).filter fun i => decide ((s.view c).grPos ≤ i) && !((s.view c).cell i).alloc).length ≤ numCells →
    (∀ i, (s.view c).grPos ≤ i → i < numCells → ((s.view c).cell i).inconsistent = false) →
    completes (.gleanDone ⟨c, .none⟩) s c fun cx cx' =>
      cx'.grMode = GrMode.ring ∧ cx'.gleaning = false ∧
      cx'.ch.gr.ring = cx.ch.gr.ring ++
        (List.range numCells).filter (fun i => decide (cx.grPos ≤ i) && !(cx.cell i).alloc) ∧
      cx'.freeCount = cx'.ch.gr.ring.length ∧
      cx'.ch.cnt Cnt.CH_CNT_GR_GLEANS = cx.ch.cnt Cnt.CH_CNT_GR_GLEANS + 1 ∧ Chan.sameMems cx.ch cx'.ch ∧
      ∀ o, o ≠ Reg.CH_GR_STATUS → o ≠ Reg.CH_GR_GLEAN → cx'.get o = cx.get o)

/-! ### Activation and identity -/

/-- DS_MGMT_MESSAGE: a message that fails its checks is dropped and nothing else happens; one that assigns the
terminal ID, gives the ranged delay or registers the terminal moves the channel as the standard defines, and
firmware's replies are queued (R144, R145, R155, R156, R157). -/
def Obligations.ManagementMessageActs : Prop :=
  ∀ (s : State) (c : ChanId) (m : List Byte) (rest replies : List (List Byte)), s.ready c → s.hl.fwUp = true →
    s.hl.mq[c].down = m :: rest → s.hl.mq[c].up.length + replies.length ≤ 8 →
    (∀ acts, completes (.dsMgmtMessage c false acts replies) s c fun cx cx' =>
      cx' = (cx.onHl fun h => { h with mq := h.mq.set c { h.mq[c] with down := rest } }).setActAux
        { cx.ch.act with ahead := cx.ch.act.ahead - 1 }) ∧
    (∀ id, s.chans[c].coreStopped = false → (s.view c).dsMode ≠ DsMode.ext100 → (s.view c).actState = Act.serialNumber →
      completes (.dsMgmtMessage c true [.assignId id] replies) s c fun cx cx' =>
        cx'.actState = Act.ranging ∧ cx'.idValid = true ∧ cx'.terminalId = id.val ∧
        cx'.bound id.val = some (cx.fld Reg.CH_ACT_CFG F.CH_ACT_CFG_MGMT_CTX) ∧ cx'.mode = cx.mode ∧
        cx'.hl.mq[c].down = rest ∧ cx'.hl.mq[c].up = cx.hl.mq[c].up ++ replies) ∧
    (∀ v, s.chans[c].coreStopped = false → (s.view c).dsMode ≠ DsMode.ext100 → (s.view c).actState = Act.ranging →
      completes (.dsMgmtMessage c true [.ranged v] replies) s c fun cx cx' =>
        cx'.get Reg.CH_ACT_EQD = v ∧ cx'.flg Reg.CH_ACT_STATUS F.CH_ACT_STATUS_EQD_VALID = true ∧
        cx'.actState = Act.ranging ∧ cx'.hl.mq[c].down = rest ∧ cx'.hl.mq[c].up = cx.hl.mq[c].up ++ replies) ∧
    (s.chans[c].coreStopped = false → (s.view c).dsMode ≠ DsMode.ext100 → (s.view c).actState = Act.ranging →
      (s.view c).mode = ModeCode.acquire →
      (s.view c).flg Reg.CH_ACT_STATUS F.CH_ACT_STATUS_EQD_VALID = true →
      completes (.dsMgmtMessage c true [.registered] replies) s c fun cx cx' =>
        cx'.actState = Act.operation ∧ cx'.mode = ModeCode.service ∧ cx'.recState = Rec.registered ∧
        cx'.hl.mq[c].down = rest ∧ cx'.hl.mq[c].up = cx.hl.mq[c].up ++ replies)

/-- TO1_EXPIRY in RANGING returns the channel to SERIAL_NUMBER and discards the terminal ID with the default
management port, where firmware runs; one that falls in its restart is remembered alone. In any other state it changes
nothing (R145, R572). TO2_EXPIRY in LODS: Service is lost to Acquire, in FAST_REENTRY when R165 allows it and
otherwise in INITIAL with no record left REGISTERED; one that falls in a restart of firmware is remembered alone; in
any other state, and in Stop, where TO2 does not run, it changes nothing (R145, R165, R481, R572).
FAST_REENTRY_ACCEPT, once firmware has read the messages that came with the grant's line frame: the channel enters
OPERATION and Service, and FAST_OK counts; before that nothing changes. FAST_REENTRY_FAIL: the record is lowered to
SERIAL, the terminal ID goes, FAST_FAIL counts and the channel is in INITIAL (R166, R168). -/
def Obligations.RegistrationLostAndRegained : Prop :=
  ((∀ (s : State) (c : ChanId), s.ready c → (s.view c).actState = Act.ranging → (s.view c).fwActs = true →
    completes (.to1Expiry c) s c fun cx cx' =>
      cx'.actState = Act.serialNumber ∧ cx'.idValid = false ∧ cx'.terminalId = 0 ∧
      (cx.idValid = true → cx'.bound cx.terminalId = none) ∧ cx'.mode = cx.mode ∧ Chan.sameMems cx.ch cx'.ch) ∧
  (∀ (s : State) (c : ChanId), s.ready c → (s.view c).actState = Act.ranging → s.hl.fwUp = false →
    completes (.to1Expiry c) s c fun cx cx' => cx' = cx.setActAux { cx.ch.act with to1 := true }) ∧
  ∀ (s : State) (c : ChanId), s.ready c → (s.view c).actState ≠ Act.ranging →
    completes (.to1Expiry c) s c fun cx cx' => cx' = cx) ∧
  ((∀ (s : State) (c : ChanId), s.ready c → (s.view c).actState = Act.lods → (s.view c).mode = ModeCode.service →
    (s.view c).recState ≠ Rec.stopped → (s.view c).fwActs = true →
    completes (.to2Expiry c) s c fun cx cx' =>
      cx'.mode = ModeCode.acquire ∧
      cx'.actState = (if cx.fastOk then Act.fastReentry else Act.initial) ∧
      (cx.fastOk = false → cx'.recState ≠ Rec.registered) ∧ Chan.sameMems cx.ch cx'.ch) ∧
  (∀ (s : State) (c : ChanId), s.ready c → (s.view c).actState = Act.lods → s.chans[c].coreStopped = false →
    s.hl.fwUp = false → completes (.to2Expiry c) s c fun cx cx' => cx' = cx.setActAux { cx.ch.act with to2 := true }) ∧
  ∀ (s : State) (c : ChanId), s.ready c → ((s.view c).actState ≠ Act.lods ∨ s.chans[c].coreStopped = true) →
    completes (.to2Expiry c) s c fun cx cx' => cx' = cx) ∧
  ((∀ (s : State) (c : ChanId), s.ready c → (s.view c).actState = Act.fastReentry → s.chans[c].act.grant = true →
    s.chans[c].act.ahead = 0 → (s.view c).fwActs = true → (s.view c).mode = ModeCode.acquire →
    completes (.fastReentryAccept c) s c fun cx cx' =>
      cx'.actState = Act.operation ∧ cx'.mode = ModeCode.service ∧
      cx'.ch.cnt Cnt.CH_CNT_ACT_FAST_OK = cx.ch.cnt Cnt.CH_CNT_ACT_FAST_OK + 1 ∧ cx'.hl.ident = cx.hl.ident ∧
      Chan.sameMems cx.ch cx'.ch) ∧
  (∀ (s : State) (c : ChanId), s.ready c → (s.view c).actState = Act.fastReentry → (s.view c).fastExpired = true →
    (s.view c).fwActs = true → (s.view c).guard ≠ Guard.accept →
    completes (.fastReentryFail c) s c fun cx cx' =>
      cx'.actState = Act.initial ∧ cx'.recState = Rec.serial ∧ cx'.idValid = false ∧ cx'.terminalId = 0 ∧
      cx'.ch.cnt Cnt.CH_CNT_ACT_FAST_FAIL = cx.ch.cnt Cnt.CH_CNT_ACT_FAST_FAIL + 1 ∧
      (∀ n < 256, cx'.flg (Reg.CH_US_SLOT n) F.CH_US_SLOT_VALID = false) ∧ Chan.sameMems cx.ch cx'.ch) ∧
  (∀ (s : State) (c : ChanId), s.ready c → (s.chans[c].act.ahead ≠ 0 ∨ s.hl.fwUp = false) →
    completes (.fastReentryAccept c) s c fun cx cx' => cx' = cx) ∧
  ∀ (s : State) (c : ChanId), s.ready c → (s.view c).actState ≠ Act.fastReentry →
    completes (.fastReentryAccept c) s c (fun cx cx' => cx' = cx) ∧
    completes (.fastReentryFail c) s c fun cx cx' => cx' = cx)

/-- SERIAL_SET in Disabled over an EMPTY or SERIAL record, with a serial number no other record holds: the record
holds the serial number and registration ID in SERIAL, GEN advances where that changes the record, and OK is answered.
A duplicate, the fallow channel and a channel of a handover are answered so and nothing changes (R37, R163, R170,
R547). IDENTITY_READ writes the whole record to host memory on the Headland's stream and changes no record (R169).
IDENTITY_CLEAR in Disabled or Halted: every byte of the record reads zero and no other record changes; the ID, delay,
allocations, port bindings, sleep permission and keys of the channel are gone (R163, R170, R470, R563).
IDENTITY_PERSIST: a record whose GEN differs from its copy's is copied whole, or, when the persist port answers with
an error, the error is counted; one whose GEN agrees is left (R163, R619). PORT_REGISTER binds the port and sets its
PORT_MAP bit; PORT_RELEASE takes both away; FAST_POLICY sets FAST_CAPABLE, but for the fallow channel, which holds no
record (log entry 121). The channel's registers and counters stay (R164, R170). -/
def Obligations.IdentityRecordsAndPorts : Prop :=
  ((∀ (s : State) (m : CmdHead) (c : ChanId) (serial : DWord) (reg : BitVec 288), s.serves m 0x0101 c →
    (s.view c).mode = ModeCode.disabled → (s.view c).recState ≤ Rec.serial → (s.view c).inHandover = false →
    (s.view c).flg Reg.CH_MODE F.CH_MODE_FALLOW = false → s.duplicateSerial c serial.toNat = false →
    answered (.serialSet m serial reg) s m MbStatus.ok true c fun cx cx' =>
      cx'.recState = Rec.serial ∧ cx'.idLe 8 8 = serial.toNat ∧ cx'.idLe 0x10 36 = reg.toNat ∧
      (Sparse.wf zeroByte cx.hl.ident = true → cx'.idGen =
        (if cx.recState = Rec.serial ∧ cx.idLe 8 8 = serial.toNat ∧ cx.idLe 0x10 36 = reg.toNat then cx.idGen
          else (cx.idGen + 1) % 65536)) ∧
      cx' = cx.onHl (fun h => { h with ident := cx'.hl.ident }) ∧
      ∀ a, (a < recSize * c.val ∨ recSize * c.val + 0x34 ≤ a) →
        Sparse.get zeroByte cx'.hl.ident a = Sparse.get zeroByte cx.hl.ident a) ∧
  (∀ (s : State) (m : CmdHead) (c : ChanId) (serial : DWord) (reg : BitVec 288), s.serves m 0x0101 c →
    (s.view c).mode = ModeCode.disabled → (s.view c).recState ≤ Rec.serial → (s.view c).inHandover = false →
    (s.view c).flg Reg.CH_MODE F.CH_MODE_FALLOW = false → s.duplicateSerial c serial.toNat = true →
    answered (.serialSet m serial reg) s m MbStatus.duplicate true c fun cx cx' => cx' = cx) ∧
  ∀ (s : State) (m : CmdHead) (c : ChanId) (serial : DWord) (reg : BitVec 288), s.serves m 0x0101 c →
    ((s.view c).inHandover = true →
      answered (.serialSet m serial reg) s m MbStatus.busy true c fun cx cx' => cx' = cx) ∧
    ((s.view c).inHandover = false → (s.view c).flg Reg.CH_MODE F.CH_MODE_FALLOW = true →
      answered (.serialSet m serial reg) s m MbStatus.badState true c fun cx cx' => cx' = cx)) ∧
  (∀ (s : State) (m : CmdHead) (c : ChanId) (addr : DWord), s.serves m 0x0102 c → addr.toNat % 64 = 0 →
    (s.view c).inHandover = false → s.hl.stream.items = [] → s.hl.fatal = false →
    answered (.identityRead m addr) s m MbStatus.ok false c fun cx cx' =>
      cx'.ch = cx.ch ∧ cx'.hl = { cx.hl with stream := { cx.hl.stream with items := cx'.hl.stream.items } } ∧
      (cx'.hl.stream.items.flatMap fun i => match i with
        | .data .image _ bs => bs
        | _ => []) = Sparse.bytes cx.hl.ident (recSize * c.val) recSize ∧
      (∀ i ∈ cx'.hl.stream.items, ∃ a bs, i = .data .image a bs ∧ 0 < bs.length ∧ a.toNat % 256 + bs.length ≤ 256)) ∧
  (∀ (s : State) (m : CmdHead) (c : ChanId), s.serves m 0x0103 c → (s.view c).inHandover = false →
    ((s.view c).mode = ModeCode.disabled ∨ (s.view c).mode = ModeCode.halted) →
    answered (.identityClear m) s m MbStatus.ok true c fun cx cx' =>
      (∀ a, Sparse.get zeroByte cx'.hl.ident a =
        if recSize * c.val ≤ a ∧ a < recSize * (c.val + 1) then 0 else Sparse.get zeroByte cx.hl.ident a) ∧
      (∀ k, Sparse.get (fun _ => none) cx'.hl.keyStore k =
        if k / 512 = c.val then none else Sparse.get (fun _ => none) cx.hl.keyStore k) ∧
      cx'.ch.keys = [] ∧ cx'.flg Reg.CH_PWR_STATUS F.CH_PWR_STATUS_PERMIT = false ∧ cx'.get Reg.CH_ACT_EQD = 0 ∧ cx'.idValid = false ∧
      (∀ n < 256, cx'.flg (Reg.CH_US_SLOT n) F.CH_US_SLOT_VALID = false) ∧
      (∀ p < 65536, cx.idPort p = true → cx'.bound p = none) ∧ cx'.mode = cx.mode ∧ Chan.sameMems cx.ch cx'.ch) ∧
  ((∀ (s : State) (c : ChanId), s.up → s.hl.fwUp = true →
    s.hl.idLe c 2 2 ≠ Sparse.le s.hl.psIdent (recSize * c.val + 2) 2 →
    (completesHl (.identityPersist c true) s fun h h' =>
      (∀ a, Sparse.get zeroByte h'.psIdent a =
        if recSize * c.val ≤ a ∧ a < recSize * (c.val + 1) then Sparse.get zeroByte h.ident a
        else Sparse.get zeroByte h.psIdent a) ∧ h' = { h with psIdent := h'.psIdent }) ∧
    completesHl (.identityPersist c false) s fun h h' => h' = h.inc Cnt.HL_CNT_PS_ERR) ∧
  ∀ (s : State) (c : ChanId) (ok : Bool), s.up → s.hl.idLe c 2 2 = Sparse.le s.hl.psIdent (recSize * c.val + 2) 2 →
    completesHl (.identityPersist c ok) s fun h h' => h' = h) ∧
  (∀ (s : State) (m : CmdHead) (c : ChanId), (s.view c).inHandover = false →
    (∀ (p : BitVec 16) (ctx : BitVec 14), s.serves m 0x0104 c →
      (s.view c).modeIn [ModeCode.disabled, ModeCode.acquire, ModeCode.service] = true →
      (s.view c).recState ≠ Rec.empty → (s.view c).idPort p.toNat = false → (s.view c).portCount < 16384 →
      answered (.portRegister m p ctx) s m MbStatus.ok true c fun cx cx' =>
        cx'.bound p.toNat = some ctx.toNat ∧ cx'.idPort p.toNat = true ∧ cx'.portCount = cx.portCount + 1 ∧
        cx'.idGen = (cx.idGen + 1) % 65536 ∧ (∀ q, q ≠ p.toNat → cx'.bound q = cx.bound q ∧ cx'.idPort q = cx.idPort q) ∧
        cx'.ch = { cx.ch with ports := cx'.ch.ports } ∧ cx'.hl = { cx.hl with ident := cx'.hl.ident }) ∧
    (∀ p : BitVec 16, s.serves m 0x0105 c → (s.view c).idPort p.toNat = true → (s.view c).mgmtPort ≠ some p.toNat →
      answered (.portRelease m p) s m MbStatus.ok true c fun cx cx' =>
        cx'.bound p.toNat = none ∧ cx'.idPort p.toNat = false ∧
        (∀ q, q ≠ p.toNat → cx'.bound q = cx.bound q ∧ cx'.idPort q = cx.idPort q) ∧
        cx'.ch = { cx.ch with ports := cx'.ch.ports } ∧ cx'.hl = { cx.hl with ident := cx'.hl.ident }) ∧
    ∀ v : Bool, s.serves m 0x0106 c →
      ((s.view c).flg Reg.CH_MODE F.CH_MODE_FALLOW = false →
        answered (.fastPolicy m v) s m MbStatus.ok true c fun cx cx' =>
          nbit (cx'.idLe 0x54 4) 0 = v ∧ nbit (cx'.idLe 0x54 4) 1 = nbit (cx.idLe 0x54 4) 1 ∧ cx'.ch = cx.ch ∧
          cx'.hl = { cx.hl with ident := cx'.hl.ident }) ∧
      ((s.view c).flg Reg.CH_MODE F.CH_MODE_FALLOW = true →
        answered (.fastPolicy m v) s m MbStatus.badState true c fun cx cx' => cx' = cx))

/-! ### Upstream -/

/-- BURST_DUE builds a serial-number burst as far as it is due: the burst header with the unassigned terminal ID, the
response template, idle envelopes, and the trailer over what comes before it; in the modes whose padding the spec
states the content is as long as the grant, and ends in its trailer, once that is due. It is staged, and nothing else
is sent or changed (R149, R186, R187, R191, R198, R199). BURST_START with no staging fault: the next burst with
content is on the line, counted with its message or serial-number response, and LAST_TX_TICK follows it at most once a
millisecond; TX_EN and the registers stay (R163, R201). -/
def Obligations.BurstsBuiltAndStarted : Prop :=
  (∀ (s : State) (c : ChanId) (rets : List CipherRet) (ecc : EccFault) (bu : Burst) (g : Grant), s.ready c →
    (s.view c).running = true → (s.view c).subStopped 5 = false → s.chans[c].us.bursts.find? Burst.open_ = some bu →
    bu.sn = true → bu.built = Built.none → bu.grants = [g] → g.slot = none →
    2 * itemBytes (s.view c).dsMode + 48 ≤ g.cap →
    (s.view c).dueAt bu (itemBytes (s.view c).dsMode + 48) = true →
    completes (.burstDue c rets ecc) s c fun cx cx' =>
      (∃ body new, cx'.ch.us.bursts = mapFirst Burst.open_ (fun b => { b with built := new }) cx.ch.us.bursts ∧
        new.cut = none ∧ (new.out = body ∨ new.out = body ++ trailerItem cx.dsMode body) ∧
        body.take (itemBytes cx.dsMode + 48) =
          cx.burstHeader cx.dsMode true true ++ (cx.hl.mq[c].template ++ List.replicate 48 0).take 48 ∧
        (cx.dsMode = DsMode.g9807 ∨ cx.dsMode = DsMode.ext100 →
          body.drop (itemBytes cx.dsMode + 48) <+:
            idleFill cx.dsMode g.cap (g.cap - (2 * itemBytes cx.dsMode + 48)) ∧
          (cx.dueAt bu (g.cap - itemBytes cx.dsMode) = true →
            body.length + itemBytes cx.dsMode = g.cap ∧ new.out = body ++ trailerItem cx.dsMode body ∧
              new.pos = .ended)) ∧
        cx'.ch.cnt Cnt.CH_CNT_US_IDLE_BYTES = cx.ch.cnt Cnt.CH_CNT_US_IDLE_BYTES +
          BitVec.ofNat 64 (body.length - (itemBytes cx.dsMode + 48)) ∧
        cx'.ch.us.staged = cx.ch.us.staged + new.out.length) ∧
      cx'.ch.us.txEn = cx.ch.us.txEn ∧ (∀ o, cx'.get o = cx.get o) ∧ cx'.hl = cx.hl ∧
      (∀ o, o ≠ Cnt.CH_CNT_US_IDLE_BYTES → cx'.ch.cnt o = cx.ch.cnt o) ∧
      cx'.ch = { cx.ch with cnts := cx'.ch.cnts, us := cx'.ch.us, stg := cx'.ch.stg }) ∧
  (∀ (s : State) (c : ChanId) (wait : Bool) (bu : Burst), s.ready c → (s.view c).running = true →
    (s.chans[c].us.bursts.find? fun b => b.begun && !b.started) = some bu →
    completes (.burstStart c wait .none) s c fun cx cx' =>
      cx'.ch.us.bursts = mapFirst (fun b => b.begun && !b.started) (fun b => { b with started := true })
        cx.ch.us.bursts ∧
      (∀ o, cx'.ch.cnt o = cx.ch.cnt o + (if o = Cnt.CH_CNT_US_BURSTS then 1 else 0) +
        (if o = Cnt.CH_CNT_ACT_SN_SENT ∧ bu.sn = true then 1 else 0) +
        (if o = Cnt.CH_CNT_ACT_US_MSG ∧ bu.msg = true then 1 else 0) +
        (if o = Cnt.CH_CNT_FR_US_SOB_WAIT ∧ wait = true then 1 else 0)) ∧
      cx'.ch = { cx.ch with cnts := cx'.ch.cnts, us := { cx.ch.us with bursts := cx'.ch.us.bursts } } ∧
      cx'.hl = { cx.hl with ident := cx'.hl.ident } ∧
      (cx.idLe 0x48 8 ≠ 0 → cx.hl.stu.tick.toNat - cx.idLe 0x48 8 < 1000000 → cx'.hl = cx.hl) ∧
      (cx.idLe 0x48 8 = 0 → cx'.idLe 0x48 8 = cx.hl.stu.tick.toNat))

/-- BURST_DUE in Service at an allocation's share of a burst whose next position alone is due. A frame goes on that
was sent in part, else the scheduler's choice is taken: by strict priority, or the present queue of the rotation while
its deficit holds. The frame that fits whole is placed behind its envelope header, padded, leaves its queue, and is
encrypted where it has a key; one that does not fit is fragmented as far as the grant goes, and stays. With no frame
eligible an idle envelope is placed. A report that is due tells the occupancy (R189 to R192, R194 to R198, R202,
R215). -/
def Obligations.GrantsFilled : Prop :=
  (∀ (s : State) (c : ChanId) (bu : Burst) (g : Grant) (slot q : Nat) (f : TxFrame) (rets : List CipherRet),
    s.fills c bu g slot (.body 0) → (s.view c).turnOf slot q ((s.view c).medTime bu bu.built.out.length) →
    ((s.view c).txq q).frames.head? = some f → f.bad = false → 0 < f.rem → f.key < 4 → s.hl.pins.testEn = false →
    ((s.view c).checkChain f.frame.cell).2 = .whole →
    ((s.view c).frameBytes f.frame.cell f.frame.len).length = f.frame.len → s.chans[c].gr.ring.length + 63 ≤ numCells →
    (f.key ≠ 0 → ∃ r, rets = [r] ∧ r.payload.length = f.rem ∧ r.err = false ∧ r.late = 0) →
    16 ≤ (s.view c).spaceOf bu → f.env (s.view c).dsMode ≤ (s.view c).spaceOf bu →
    (s.view c).dueAt bu (bu.built.out.length + f.env (s.view c).dsMode) = false →
    completes (.burstDue c rets .none) s c fun cx cx' =>
      let mode := cx.dsMode
      let r := rets.headD ⟨[], 0, false, 0⟩
      let raw := ((cx.frameBytes f.frame.cell f.frame.len).drop f.sent).take f.rem
      let seed := if mode = DsMode.ext100 ∧ f.key ≠ 0 then beBytes 8 r.seed.toNat else []
      let env := envHeader f.rem f.key (f.ovrPort.getD f.frame.port) true ++ seed ++
        (if f.key = 0 then raw else r.payload)
      let at_ := bu.built.out.length + 8 + seed.length
      cx'.ch.us.bursts = mapFirst Burst.open_ (fun b => { b with
        built := { b.built with out := b.built.out ++ env ++ List.replicate (padLen mode f.rem) 0 }
        done := b.done ++ [⟨f.src, f.frame.len, f.frame.ftype, f.cellErr,
          f.tsent.getD (BitVec.ofNat 64 (wrapInt 64 ((cx.medTime bu at_ + 64000) / 128000))),
          bu.built.out.length + env.length⟩] }) cx.ch.us.bursts ∧
      (cx'.txq q).frames = (cx.txq q).frames.tail ∧
      (∀ p, p ≠ q → (cx'.txq p).frames = (cx.txq p).frames) ∧
      (f.key = 0 → cx'.ch.cpReq = cx.ch.cpReq) ∧
      (f.key ≠ 0 → cx'.ch.cpReq = some (1, usHeader bu mode at_ f.rem f)) ∧
      cx'.ch.us.staged = cx.ch.us.staged + (env.length + padLen mode f.rem) ∧
      (f.sent = 0 → cx.flg (Reg.CH_US_SLOT slot) F.CH_US_SLOT_SCHED = true →
        cx'.deficit q + f.env mode = cx.deficit q) ∧
      cx'.ch.us.txEn = cx.ch.us.txEn ∧ cx'.mode = cx.mode) ∧
  (∀ (s : State) (c : ChanId) (bu : Burst) (g : Grant) (slot q : Nat) (f : TxFrame) (rets : List CipherRet),
    s.fills c bu g slot (.body 0) → (s.view c).turnOf slot q ((s.view c).medTime bu bu.built.out.length) →
    (s.view c).dsMode = DsMode.g9807 ∨ (s.view c).dsMode = DsMode.ext100 →
    ((s.view c).txq q).frames.head? = some f → f.bad = false → f.key = 0 → f.rem ≤ 16383 →
    ((s.view c).checkChain f.frame.cell).2 = .whole →
    ((s.view c).frameBytes f.frame.cell f.frame.len).length = f.frame.len → 16 ≤ (s.view c).spaceOf bu →
    (s.view c).spaceOf bu < f.env (s.view c).dsMode →
    (s.view c).dueAt bu (bu.built.out.length + envLen (s.view c).dsMode false
      (maxPli (s.view c).dsMode 8 ((s.view c).spaceOf bu))) = false →
    completes (.burstDue c rets .none) s c fun cx cx' =>
      let n := maxPli cx.dsMode 8 (cx.spaceOf bu)
      cx'.ch.us.bursts = mapFirst Burst.open_ (fun b => { b with built := { b.built with
        pos := .idle 0
        out := b.built.out ++ (envHeader n 0 (f.ovrPort.getD f.frame.port) false ++
          ((cx.frameBytes f.frame.cell f.frame.len).drop f.sent).take n) ++ List.replicate (padLen cx.dsMode n) 0 } })
        cx.ch.us.bursts ∧
      (∃ f', (cx'.txq q).frames = f' :: (cx.txq q).frames.tail ∧ f'.sent = f.sent + n ∧ f'.tsent.isSome = true ∧
        f' = { f with sent := f'.sent, tsent := f'.tsent }) ∧
      cx'.ch.cnt Cnt.CH_CNT_US_FRAGMENTS = cx.ch.cnt Cnt.CH_CNT_US_FRAGMENTS + 1 ∧
      cx'.ch.cpReq = cx.ch.cpReq ∧ Chan.sameMems { cx.ch with stg := cx'.ch.stg } cx'.ch ∧ cx'.hl = cx.hl) ∧
  (∀ (s : State) (c : ChanId) (bu : Burst) (g : Grant) (slot : Nat) (rets : List CipherRet) (ecc : EccFault),
    s.fills c bu g slot (.body 0) → (s.view c).partQueue slot = none →
    (s.view c).flg (Reg.CH_US_SLOT slot) F.CH_US_SLOT_SCHED = false →
    (∀ q ∈ (s.view c).slotMembers slot, (s.view c).eligible q ((s.view c).medTime bu bu.built.out.length) = false) →
    0 < (s.view c).spaceOf bu →
    (s.view c).dueAt bu (bu.built.out.length + (idleEnv (s.view c).dsMode ((s.view c).spaceOf bu)).length) = false →
    completes (.burstDue c rets ecc) s c fun cx cx' =>
      let e := idleEnv cx.dsMode (cx.spaceOf bu)
      (∃ new, cx'.ch.us.bursts = mapFirst Burst.open_ (fun b => { b with built := new }) cx.ch.us.bursts ∧
        new.out = bu.built.out ++ e ∧ new.pos = .idle 0) ∧
      cx'.ch.cnt Cnt.CH_CNT_US_IDLE_BYTES = cx.ch.cnt Cnt.CH_CNT_US_IDLE_BYTES + BitVec.ofNat 64 e.length ∧
      cx'.ch.rings = cx.ch.rings ∧ cx'.hl = cx.hl) ∧
  ∀ (s : State) (c : ChanId) (bu : Burst) (g : Grant) (slot : Nat) (rets : List CipherRet) (ecc : EccFault),
    s.fills c bu g slot (.report 0) → g.report = true →
    (s.view c).dueAt bu (bu.built.out.length + itemBytes (s.view c).dsMode) = false →
    completes (.burstDue c rets ecc) s c fun cx cx' =>
      cx'.ch.us.bursts = mapFirst Burst.open_ (fun b => { b with built := { b.built with
        pos := .body 0, out := b.built.out ++ reportItem cx.dsMode (cx.occupancy cx.dsMode slot) } })
        cx.ch.us.bursts ∧
      (∀ o, cx'.ch.cnt o = cx.ch.cnt o + (if o = Cnt.CH_CNT_US_REPORTS then 1 else 0)) ∧
      cx'.ch.rings = cx.ch.rings ∧ cx'.hl = cx.hl

/-- TX_EN_ON while the guard has a window open, which it has only in a mode and state that R208 allows: TX_EN is high,
for a burst and without one alike. TX_EN_OFF lowers it; outside an orderly disable it does nothing else (R205, R206,
R208). FRAME_SENT: the frame counts with its length. One without a descriptor completes nowhere; one with a descriptor
completes in its queue's ring, with its length, index, cookie and timestamp, or waits in the hold queue; one that
asked for a timestamp enters the timestamp queue, or, when that is full, is dropped from it and counted (R202, R384 to
R387, R391, R394, R440). -/
def Obligations.TransmitterOpensAndFramesCounted : Prop :=
  ((∀ (s : State) (c : ChanId) (bu : Burst), s.ready c → s.chans[c].coreStopped = false →
    (s.view c).guardOpen = true → (s.chans[c].us.bursts.find? fun b => !b.on) = some bu →
    completes (.txEnOn c false) s c fun cx cx' =>
      cx' = { cx with ch := { cx.ch with us := { cx.ch.us with
        bursts := mapFirst (fun b => !b.on) (fun b => { b with on := true }) cx.ch.us.bursts
        bld := true, txEn := true, trip := false } } }) ∧
  (∀ (s : State) (c : ChanId), s.ready c → s.chans[c].coreStopped = false → (s.view c).guardOpen = true →
    completes (.txEnOn c true) s c fun cx cx' =>
      cx' = { cx with ch := { cx.ch with us := { cx.ch.us with bld := true, txEn := true, trip := false } } }) ∧
  (∀ (s : State) (c : ChanId) (rogue : Bool), s.ready c →
    (s.chans[c].coreStopped = true ∨ s.chans[c].mode = ModeCode.halted ∨
      (rogue = false ∧ s.chans[c].us.bursts.all Burst.on = true)) →
    completes (.txEnOn c rogue) s c fun cx cx' => cx' = cx) ∧
  ∀ (s : State) (c : ChanId) (ecc : EccFault), s.ready c →
    completes (.txEnOff ⟨c, ecc⟩) s c fun cx cx' =>
      cx'.ch.us.txEn = false ∧ cx'.ch.us.bld = false ∧ cx'.ch.us.bursts.length ≤ cx.ch.us.bursts.length ∧
      (∀ b ∈ cx'.ch.us.bursts, ∃ a ∈ cx.ch.us.bursts, b = a ∨ (a.on = true ∧ b = { a with off := true })) ∧
      (cx.ch.disabling = false → cx' = { cx with ch := { cx.ch with us := { cx.ch.us with
        bursts := cx'.ch.us.bursts, txEn := false, bld := false } } })) ∧
  ((∀ (s : State) (c : ChanId) (bu : Burst) (f : Flying) (l : List Flying), s.ready c →
    (s.view c).modeIn [ModeCode.halted, ModeCode.stop] = false →
    (s.chans[c].us.bursts.find? fun b => b.started && !b.done.isEmpty) = some bu → bu.done = f :: l → f.src = none →
    completes (.frameSent c) s c fun cx cx' =>
      (∀ o, cx'.ch.cnt o = cx.ch.cnt o + (if o = Cnt.CH_CNT_US_FRAMES then 1 else 0) +
        (if o = Cnt.CH_CNT_US_BYTES then BitVec.ofNat 64 f.len else 0)) ∧
      cx' = { cx with ch := { cx.ch with cnts := cx'.ch.cnts, us := { cx.ch.us with bursts := cx'.ch.us.bursts } } }) ∧
  ∀ (s : State) (c : ChanId) (bu : Burst) (f : Flying) (l : List Flying) (src : TxSrc), s.ready c →
    (s.view c).modeIn [ModeCode.halted, ModeCode.stop] = false →
    (s.chans[c].us.bursts.find? fun b => b.started && !b.done.isEmpty) = some bu → bu.done = f :: l →
    f.src = some src →
    completes (.frameSent c) s c fun cx cx' =>
      cx'.ch.cnt Cnt.CH_CNT_US_FRAMES = cx.ch.cnt Cnt.CH_CNT_US_FRAMES + 1 ∧
      cx'.ch.cnt Cnt.CH_CNT_US_BYTES = cx.ch.cnt Cnt.CH_CNT_US_BYTES + BitVec.ofNat 64 f.len ∧
      Cx.completed cx cx'
        { ring := cx.qRing true src.queue, status := if f.cellErr then CplStatus.cellErr else CplStatus.ok, tx := true
          queue := src.queue, nbuf := src.nbuf, mirror := false, trunc := false, copy := false, ftype := f.ftype
          info := if src.tsReq then src.tsTag else 0, len := src.flen, index := src.index, cookie := src.cookie
          time := f.ts, tsValid := true } ∧
      (src.tsReq = false → cx'.ch.tsq = cx.ch.tsq ∧
        cx'.ch.cnt Cnt.CH_CNT_TSQ_PUSH = cx.ch.cnt Cnt.CH_CNT_TSQ_PUSH) ∧
      (src.tsReq = true → cx.ch.tsq.length < 64 → cx'.ch.tsq = cx.ch.tsq ++ [⟨src.tsTag, src.queue, f.ts⟩] ∧
        cx'.ch.cnt Cnt.CH_CNT_TSQ_PUSH = cx.ch.cnt Cnt.CH_CNT_TSQ_PUSH + 1) ∧
      (src.tsReq = true → 64 ≤ cx.ch.tsq.length → cx'.ch.tsq = cx.ch.tsq ∧ cx'.flg Reg.CH_TSQ_STATUS F.CH_TSQ_STATUS_OVF = true ∧
        cx'.ch.cnt Cnt.CH_CNT_TSQ_DROP = cx.ch.cnt Cnt.CH_CNT_TSQ_DROP + 1) ∧
      Chan.sameMems cx.ch cx'.ch)

/-- TX_EN raised while the guard's window is closed trips the guard: the pin is low, TRIPPED sets, the ROGUE_GUARD
event is raised, and with HALT_ON_TRIP the channel halts with cause 0x06, or counts the fault in Disabled; without it
the channel goes on. The trip counts, but for a further one without HALT_ON_TRIP before the guard next has a window
open. A burst raised outside its window trips the guard too (R62, R206, R207; what the same window is, is the model's
choice of log entry 131). -/
def Obligations.GuardTripsRogueTransmitter : Prop :=
  (∀ (s : State) (c : ChanId), s.ready c → s.chans[c].coreStopped = false → (s.view c).mode ≠ ModeCode.halted →
    (s.view c).guardOpen = false →
    completes (.txEnOn c true) s c fun cx cx' =>
      let halts := cx.flg Reg.CH_US_GUARD F.CH_US_GUARD_HALT_ON_TRIP
      cx'.ch.us.txEn = false ∧ cx'.flg Reg.CH_US_GUARD F.CH_US_GUARD_TRIPPED = true ∧
      cx'.ch.cnt Cnt.CH_CNT_US_ROGUE_TRIP =
        cx.ch.cnt Cnt.CH_CNT_US_ROGUE_TRIP + (if cx.ch.us.trip = true ∧ halts = false then 0 else 1) ∧
      Cx.raised cx cx' Ev.rogueGuard ∧
      (halts = true → cx.modeIn [ModeCode.disabled, ModeCode.stop] = false →
        cx'.mode = ModeCode.halted ∧ cx'.ch.us.bursts = [] ∧
        cx'.fld Reg.CH_HALT_CAUSE F.CH_HALT_CAUSE_CAUSE = Halt.rogueTrip ∧ Cx.raised cx cx' Ev.halt) ∧
      (halts = true → cx.mode = ModeCode.disabled →
        cx'.mode = ModeCode.disabled ∧ Cx.raised cx cx' Ev.halt ∧
        cx'.ch.cnt Cnt.CH_CNT_DISABLED_FAULT = cx.ch.cnt Cnt.CH_CNT_DISABLED_FAULT + 1) ∧
      (halts = false →
        cx'.mode = cx.mode ∧ cx'.ch.us = { cx.ch.us with txEn := false, bld := true, trip := true } ∧
        Cx.regsBut cx cx' [Reg.CH_US_GUARD] [Cnt.CH_CNT_US_ROGUE_TRIP] ∧ Headland.evented cx.hl cx'.hl) ∧
      Chan.sameMems cx.ch cx'.ch) ∧
  ∀ (s : State) (c : ChanId) (bu : Burst), s.ready c → s.chans[c].coreStopped = false →
    (s.view c).mode ≠ ModeCode.halted → (s.view c).guardOpen = false →
    (s.chans[c].us.bursts.find? fun b => !b.on) = some bu →
    completes (.txEnOn c false) s c fun cx cx' =>
      cx'.ch.us.txEn = false ∧ cx'.flg Reg.CH_US_GUARD F.CH_US_GUARD_TRIPPED = true ∧
      (cx.ch.us.trip = false →
        cx'.ch.cnt Cnt.CH_CNT_US_ROGUE_TRIP = cx.ch.cnt Cnt.CH_CNT_US_ROGUE_TRIP + 1) ∧
      Cx.raised cx cx' Ev.rogueGuard ∧ Chan.sameMems cx.ch cx'.ch

/-! ### Descriptor and completion rings -/

/-- QUEUE_ENABLE meeting the conditions of R375: C and P are START, nothing is held, EN reads 1 and IDLE 0, the line
is watched and, outside Disabled, read; no other queue changes. With IDLE at 0 it is refused and EN reads 0 (R354,
R375). QUEUE_TAKEDOWN: EN reads 0 from then on, C and P stay, nothing is held, and no frame waits that was not
selected. QUEUE_IDLE sets IDLE once nothing is owed, and never before. TAKEDOWN_GRANT_TIMEOUT takes the partly sent
frame out of a queue that is down, and nothing out of any other (R377, R378). -/
def Obligations.QueuesEnabledAndTakenDown : Prop :=
  ((∀ (s : State) (c : ChanId) (tx : Bool) (q : Fin 256) (v : Word), s.takes c → (s.view c).qEn tx q = false →
    (s.view c).qIdle tx q = true → 6 ≤ getF v F.CH_RXQ_CTL_SIZE_LOG2 →
    (s.view c).flg Reg.CH_DB_BASE_LO F.CH_DB_BASE_LO_VALID = true →
    (s.view c).flg (Reg.CH_CRING_CTL (getF v F.CH_RXQ_CTL_CRING)) F.CH_CRING_CTL_EN = true →
    (tx = true → ((s.view c).slotMembers ((s.view c).fld (Reg.CH_TXQ_MAP q) F.CH_TXQ_MAP_SLOT)).length < 8) →
    completes (.queueEnable c tx q v) s c fun cx cx' =>
      cx'.qEn tx q = true ∧ cx'.qIdle tx q = false ∧ cx'.qLog2 tx q = getF v F.CH_RXQ_CTL_SIZE_LOG2 ∧
      cx'.qRing tx q = getF v F.CH_RXQ_CTL_CRING ∧ cx'.get (qHead tx q) = cx.get (qStart tx q) ∧
      cx'.get (qTail tx q) = cx.get (qStart tx q) ∧ cx'.heldSlots tx q = [] ∧ (tx = false → (cx'.rxq q).bufs = []) ∧
      cx'.lineWatched (lineOf tx q) = true ∧
      (cx.mode ≠ ModeCode.disabled → cx'.readPending (.doorbell (Fin.ofNat 36 (lineOf tx q))) = true) ∧
      (∀ o, o ≠ qCtl tx q → o ≠ qHead tx q → o ≠ qTail tx q → cx'.get o = cx.get o) ∧
      cx'.ch.cnts = cx.ch.cnts ∧ Chan.sameMems cx.ch cx'.ch) ∧
  ∀ (s : State) (c : ChanId) (tx : Bool) (q : Fin 256) (v : Word), s.takes c → (s.view c).qEn tx q = false →
    (s.view c).qIdle tx q = false →
    completes (.queueEnable c tx q v) s c fun cx cx' =>
      cx'.qEn tx q = false ∧ Cx.onlyEv cx cx' [qCtl tx q] [] ∧ cx'.qLog2 tx q = cx.qLog2 tx q ∧
      cx'.qRing tx q = cx.qRing tx q) ∧
  ((∀ (s : State) (c : ChanId) (ecc : EccFault) (tx : Bool) (q : Fin 256) (v : Word), s.takes c →
    (s.view c).qEn tx q = true →
    completes (.queueTakedown ⟨c, ecc⟩ tx q v) s c fun cx cx' =>
      cx'.qEn tx q = false ∧ cx'.qIdle tx q = cx.qIdle tx q ∧ cx'.get (qHead tx q) = cx.get (qHead tx q) ∧
      cx'.get (qTail tx q) = cx.get (qTail tx q) ∧ cx'.heldSlots tx q = [] ∧
      (if tx then (cx'.txq q).frames = (cx.txq q).frames.filter (fun f => decide (0 < f.sent))
        else (cx'.rxq q).frames = [])) ∧
  (∀ (s : State) (c : ChanId) (tx : Bool) (q : Fin 256), s.ready c → s.chans[c].coreStopped = false →
    (s.view c).qEn tx q = false → (s.view c).qIdle tx q = false → (s.view c).owesNothing tx q = true →
    completes (.queueIdle c tx q) s c fun cx cx' =>
      Cx.only cx cx' [qCtl tx q] [] ∧ cx'.qIdle tx q = true ∧ cx'.qEn tx q = false) ∧
  (∀ (s : State) (c : ChanId) (tx : Bool) (q : Fin 256), s.ready c →
    ((s.view c).qEn tx q = true ∨ (s.view c).owesNothing tx q = false) →
    completes (.queueIdle c tx q) s c fun cx cx' => cx' = cx) ∧
  (∀ (s : State) (c : ChanId) (q : Fin 256) (f : TxFrame) (l : List TxFrame), s.ready c → (s.view c).ringsRun = true →
    (s.view c).qEn true q = false → ((s.view c).txq q).frames = f :: l → 0 < f.sent →
    completes (.takedownGrantTimeout c q) s c fun _ cx' => (cx'.txq q).frames = l) ∧
  ∀ (s : State) (c : ChanId) (q : Fin 256), s.ready c →
    ((s.view c).qEn true q = true ∨ ∀ f ∈ ((s.view c).txq q).frames, f.sent = 0) →
    completes (.takedownGrantTimeout c q) s c fun cx cx' => cx' = cx)

/-- DB_BASE_WRITE is accepted only while every queue and completion ring is disabled and idle. DOORBELL_POLL and
HP_INVALIDATE read the watched lines in the mode of CH_DB_POLL.WATCH that they belong to, and DB_KICK the line it
names; an unwatched line is not read (R351, R380). DOORBELL_LINE_READ of a line of queues: the tail of each enabled
queue takes its entry when the entry lies within the ring ahead of it, and stays otherwise; a queue that is not
enabled is left. In Stop every tail stays (R349, R353, R354). -/
def Obligations.DoorbellsReadAndTailsAccepted : Prop :=
  ((∀ (s : State) (c : ChanId) (hi : Bool) (v : Word), s.takes c →
    ((s.view c).allIdle = true → completes (.dbBaseWrite c hi v) s c fun cx cx' =>
      cx'.get (if hi then Reg.CH_DB_BASE_HI else Reg.CH_DB_BASE_LO) = (if hi then v else v &&& 0xFFFFF001) ∧
      Cx.only cx cx' [if hi then Reg.CH_DB_BASE_HI else Reg.CH_DB_BASE_LO] []) ∧
    ((s.view c).allIdle = false → completes (.dbBaseWrite c hi v) s c fun cx cx' => Cx.onlyEv cx cx' [] [])) ∧
  (∀ (s : State) (c : ChanId), s.ready c → (s.view c).modeIn [ModeCode.disabled, ModeCode.halted] = false →
    completes (.doorbellPoll c) s c fun cx cx' =>
      (∀ k : Fin 36, cx.watchMode = false → cx.lineWatched k = true → cx'.readPending (.doorbell k) = true) ∧
      (∀ k : Fin 36, cx.watchMode = true ∨ cx.lineWatched k = false →
        cx'.readPending (.doorbell k) = cx.readPending (.doorbell k)) ∧
      cx' = cx.setRings { cx.ch.rings with reads := cx'.ch.rings.reads }) ∧
  (∀ (s : State) (line : BitVec 58), s.up →
    ∃ t, exec (.hpInvalidate line) s = .next t ∧ t.hl = s.hl ∧ t.pending = s.pending ∧
      ∀ (c : ChanId) (k : Fin 36), s.hl.resetRuns c = false → (s.view c).watchMode = true →
        (s.view c).modeIn [ModeCode.disabled, ModeCode.halted] = false → (s.view c).lineWatched k = true →
        ((s.view c).lineAddr k).toNat = 64 * line.toNat → (t.view c).readPending (.doorbell k) = true) ∧
  ∀ (s : State) (c : ChanId) (k : Fin 64), s.takes c →
    completes (.dbKick c k) s c fun cx cx' =>
      cx'.ch.cnt Cnt.CH_CNT_RING_KICKS = cx.ch.cnt Cnt.CH_CNT_RING_KICKS + 1 ∧
      (cx.lineWatched k = true → cx.mode ≠ ModeCode.disabled →
        cx'.readPending (.doorbell (Fin.ofNat 36 k)) = true) ∧
      (cx.lineWatched k = false → cx' = cx.inc Cnt.CH_CNT_RING_KICKS)) ∧
  ((∀ (s : State) (c : ChanId) (k : Fin 36) (ts : Vector Word 16), s.ready c → k.val < 32 →
    s.chans[c].coreStopped = false → (s.view c).subStopped 1 = false → (s.view c).readPending (.doorbell k) = true →
    (s.view c).modeIn [ModeCode.disabled, ModeCode.halted] = false →
    completes (.doorbellLineRead c k ts.toList) s c fun cx cx' =>
      cx'.ch.cnt Cnt.CH_CNT_RING_DB_READS = cx.ch.cnt Cnt.CH_CNT_RING_DB_READS + 1 ∧
      ∀ e : Fin 16,
        let tx := decide (16 ≤ k.val)
        let q := 16 * (k.val % 16) + e.val
        let cons := cx.get (qHead tx q)
        cx'.get (qTail tx q) =
          if cx.qEn tx q = true ∧ idxDiff (cx.get (qTail tx q)) cons ≤ idxDiff ts[e] cons ∧
            idxDiff ts[e] cons ≤ 2 ^ cx.qLog2 tx q then ts[e] else cx.get (qTail tx q)) ∧
  ∀ (s : State) (c : ChanId) (k : Fin 36) (ts : Vector Word 16), s.ready c → s.chans[c].coreStopped = true →
    completes (.doorbellLineRead c k ts.toList) s c fun cx cx' =>
      ∀ (tx : Bool), ∀ q < 256, cx'.get (qTail tx q) = cx.get (qTail tx q))

/-- DESCRIPTOR_FETCH and OWN_REREAD of the slot at C of an enabled receive queue with room in its list: a whole
descriptor whose mark matches is taken, C advances and its buffer joins the list; a malformed one halts the channel
and C stays. One of a transmit queue is checked and held, and C stays. The slot was read at its host address (R342,
R363, R365, R368, R369). HOST_READ_RETRY: an outstanding doorbell read that fails is tried again three times, and its
fourth failure, or a fatal code, halts the channel with cause 4 (R587, R589, R590). -/
def Obligations.DescriptorsReadOrRetried : Prop :=
  (∀ (s : State) (c : ChanId) (q : Fin 256) (bs : List Byte), s.ready c → (s.view c).running = true →
    (s.view c).subStopped 1 = false →
    (∀ idx, idx = (s.view c).get (qHead false q) → (s.view c).qEn false q = true → ((s.view c).rxq q).bufs.length < 16 →
      0 < idxDiff ((s.view c).get (qTail false q)) idx → slotOwn bs = phaseOf idx ((s.view c).qLog2 false q) →
      (((s.view c).rxq q).held = [] →
        (rxMalformed bs = 0 → completes (.descriptorFetch c false q idx [bs]) s c fun cx cx' =>
          cx'.get (qHead false q) = idx + 1 ∧ (cx'.rxq q).bufs = (cx.rxq q).bufs ++ [rxBufOf idx bs] ∧
          cx'.ch.rings.slotAt = some (cx.descAddr false q idx) ∧
          cx'.ch.cnt Cnt.CH_CNT_RX_DESC = cx.ch.cnt Cnt.CH_CNT_RX_DESC + 1) ∧
        (rxMalformed bs ≠ 0 → completes (.descriptorFetch c false q idx [bs]) s c fun cx cx' =>
          cx'.get (qHead false q) = idx ∧ (cx'.rxq q).bufs = (cx.rxq q).bufs ∧
          (cx.mode ≠ ModeCode.handover → cx'.mode = ModeCode.halted ∧
            cx'.fld Reg.CH_HALT_CAUSE F.CH_HALT_CAUSE_CAUSE = Halt.malformedDesc))) ∧
      ∀ h : HeldSlot, ((s.view c).rxq q).held = [h] → h.idx = idx → h.matched = false → rxMalformed bs = 0 →
        completes (.ownReread c false q bs) s c fun cx cx' =>
          cx'.get (qHead false q) = idx + 1 ∧ (cx'.rxq q).bufs = (cx.rxq q).bufs ++ [rxBufOf idx bs] ∧
          cx'.ch.cnt Cnt.CH_CNT_RX_DESC = cx.ch.cnt Cnt.CH_CNT_RX_DESC + 1) ∧
    ∀ idx, idx = (s.view c).get (qHead true q) → (s.view c).qEn true q = true → ((s.view c).txq q).descs = [] →
      ((s.view c).txq q).held = [] → 0 < idxDiff ((s.view c).get (qTail true q)) idx →
      slotOwn bs = phaseOf idx ((s.view c).qLog2 true q) → txMalformed ⟨0, 0, 0, 0⟩ bs = 0 →
      completes (.descriptorFetch c true q idx [bs]) s c fun cx cx' =>
        (cx'.txq q).descs = [txDescOf bs] ∧ cx'.ch.rings.slotAt = some (cx.descAddr true q idx) ∧ (∀ o, cx'.get o = cx.get o) ∧ cx'.ch.cnts = cx.ch.cnts ∧ cx'.hl = cx.hl) ∧
  (∀ (s : State) (c : ChanId) (k : Fin 36) (code : Byte) (r : ReadReq), s.ready c →
    ((s.view c).mode = ModeCode.acquire ∨ (s.view c).mode = ModeCode.service) → s.chans[c].rings.reads = [r] →
    r.what = .doorbell k → code ≠ 0 →
    (fatalCode code = false → r.tries < 3 → completes (.hostReadRetry c (.doorbell k) code) s c fun cx cx' =>
      cx'.ch.rings.reads = [{ r with tries := r.tries + 1 }] ∧ cx'.ch = { cx.ch with rings := cx'.ch.rings } ∧
      cx'.hl.cnt Cnt.HL_CNT_HP_RETRY = cx.hl.cnt Cnt.HL_CNT_HP_RETRY + 1) ∧
    (fatalCode code = true ∨ r.tries = 3 → completes (.hostReadRetry c (.doorbell k) code) s c fun cx cx' =>
      cx'.mode = ModeCode.halted ∧ cx'.fld Reg.CH_HALT_CAUSE F.CH_HALT_CAUSE_CAUSE = Halt.hostFatal ∧
      Chan.sameMems cx.ch cx'.ch))

/-- TX_FRAME_START takes the reservations of the queue whose turn it is; TX_FRAME_STORED and TX_BUFFER_READ_ERROR end
the storage and consume the whole chain; the stored cells hold the frame, padded and with its FCS, and a frame whose
rule forwards it enters its transmit queue with what its descriptors ask for; a failed read counts and a fatal one
halts (R314, R323, R361, R365 to R367, R272, R277). RX_WRITE_OUT of a frame whose buffer need is met and whose
completion has room: it leaves the queue, counts, its bytes are written into its buffers, and its completion stands in
its ring behind them, or is held. RX_HOLD_EXPIRY drops the head frame, which counts as NO_HOST_BUFFER. With the need
unmet, and with no hold running, nothing happens (R371, R372, R385, R386, R391, R394). -/
def Obligations.FramesStoredAndLeave : Prop :=
  ((∀ (s : State) (c : ChanId) (q : Fin 256) (d : TxDesc) (ch : List TxDesc), s.ready c → (s.view c).ringsRun = true →
    s.chans[c].rings.turn = q.val → (s.view c).qEn true q = true → ((s.view c).txq q).storing = none →
    ((s.view c).txq q).chain = some (d, ch) → (s.view c).cplRoom ((s.view c).qRing true q) = true →
    min numCells ((s.view c).fld Reg.CH_GR_CFG F.CH_GR_CFG_US_FLOOR) + cellsFor (storedLen d.frameLen) +
      (s.view c).reserved ≤ (s.view c).freeCount →
    completes (.txFrameStart c) s c fun cx cx' =>
      (cx'.txq q).storing.isSome = true ∧ cx'.reserved = cx.reserved + cellsFor (storedLen d.frameLen) ∧
      cx'.ch.rings.turn = (q.val + 1) % 256 ∧ cx'.freeCount = cx.freeCount ∧
      cx'.get (qHead true q) = cx.get (qHead true q) ∧ Chan.sameMems cx.ch cx'.ch) ∧
  (∀ (s : State) (c : ChanId), s.ready c → (∀ q < 256, (s.view c).qEn true q = false) →
    completes (.txFrameStart c) s c fun cx cx' => cx' = cx) ∧
  (∀ (s : State) (c : ChanId) (q : Fin 256) (bytes : List Byte) (ecc : EccFault) (e : Entry) (d : TxDesc) (ch : List TxDesc),
    s.ready c → (s.view c).finishing = true → ((s.view c).txq q).storing = some e →
    ((s.view c).txq q).chain = some (d, ch) → (∀ g, e.slot = some g → g < 4) →
    (({ s.view c with ecc := ecc } : Cx).storeFrame Owner.usRing true
      (padFcs ((bytes ++ List.replicate d.frameLen 0).take d.frameLen))).1.isSome = true →
    completes (.txFrameStored c q bytes ecc) s c fun cx cx' =>
      cx'.get (qHead true q) = cx.get (qHead true q) + BitVec.ofNat 32 d.nbuf ∧ (cx'.txq q).storing = none) ∧
  (∀ (s : State) (c : ChanId) (q : Fin 256) (bytes plain : List Byte) (e : Entry) (d : TxDesc) (ch : List TxDesc)
    (cell r t : Nat) (x : ActStep), s.ready c → (s.view c).finishing = true → (s.view c).qEn true q = true →
    ((s.view c).txq q).storing = some e → ((s.view c).txq q).chain = some (d, ch) → (∀ g, e.slot = some g → g < 4) →
    e.seen = none → s.chans[c].badRows = [] → (∀ n ∈ s.chans[c].gr.ring, n < numCells) → d.frameLen ≤ 15996 →
    plain = (bytes ++ List.replicate d.frameLen 0).take d.frameLen →
    ((s.view c).storeFrame Owner.usRing true (padFcs plain)).1 = some cell →
    (parse (s.view c).parseCfg plain).cause = 0 → (parse (s.view c).parseCfg plain).frag = false →
    ((s.view c).usDecides plain e q).walk = .rule r → ((s.view c).usDecides plain e q).act = some x → r < 8192 →
    x.ctx < 16384 → x.good = true → nbit x.c0 0 = true → nbits x.c0 17 16 = 0 →
    x.want = [⟨.tx t, false, false, false⟩] → x.indBad = false → x.noMirror = false → (s.view c).qEn true t = true →
    completes (.txFrameStored c q bytes .none) s c fun cx cx' =>
      cx'.get (qHead true q) = cx.get (qHead true q) + BitVec.ofNat 32 d.nbuf ∧ (cx'.txq q).storing = none ∧
      cx'.frameBytes cell (padFcs plain).length = padFcs plain ∧
      (∃ f, (cx'.txq t).frames = (cx.txq t).frames ++ [f] ∧ f.frame.cell = cell ∧
        f.frame.len = (padFcs plain).length ∧ f.frame.rule = r ∧ f.frame.ctx = e.ctx ∧ f.frame.port = e.port ∧
        f.src = some (cx.chainSrc q d) ∧ f.queue = q.val ∧ f.sent = 0 ∧ f.key = 0 ∧
        f.launch = (if d.ltEn = true then some d.launch else none)) ∧
      cx'.ch.cnt Cnt.CH_CNT_CLS_US_WALKS = cx.ch.cnt Cnt.CH_CNT_CLS_US_WALKS + 1 ∧
      cx'.ruleLe r 0x10 8 = (cx.ruleLe r 0x10 8 + 1) % 2 ^ 64) ∧
  ∀ (s : State) (c : ChanId) (q : Fin 256) (stored : List Byte) (code : Byte) (e : Entry) (d : TxDesc) (ch : List TxDesc),
    s.ready c → (s.view c).finishing = true → ((s.view c).txq q).storing = some e →
    ((s.view c).txq q).chain = some (d, ch) → (∀ g, e.slot = some g → g < 4) → code ≠ 0 →
    (fatalCode code = false → completes (.txBufferReadError c q stored code) s c fun cx cx' =>
      cx'.get (qHead true q) = cx.get (qHead true q) + BitVec.ofNat 32 d.nbuf ∧ (cx'.txq q).storing = none ∧
      cx'.ch.cnt Cnt.CH_CNT_TX_READ_ERR = cx.ch.cnt Cnt.CH_CNT_TX_READ_ERR + 1) ∧
    (fatalCode code = true → (s.view c).mode ≠ ModeCode.handover →
      completes (.txBufferReadError c q stored code) s c fun cx cx' =>
        cx'.mode = ModeCode.halted ∧ cx'.fld Reg.CH_HALT_CAUSE F.CH_HALT_CAUSE_CAUSE = Halt.hostFatal)) ∧
  ((∀ (s : State) (c : ChanId) (q : Fin 256) (ecc : EccFault) (d : RxDeliv) (n : Nat), s.ready c →
    (s.view c).ringsRun = true → ((s.view c).rxq q).frames = [d] → (s.view c).rxNeed q = some n →
    (({ s.view c with ecc := ecc } : Cx).checkChain d.frame.cell).2 = .whole → (s.view c).cplRoom ((s.view c).qRing false q) = true →
    completes (.rxWriteOut c q ecc) s c fun cx cx' =>
      (cx'.rxq q).frames = [] ∧ (cx'.rxq q).holding = false ∧
      cx'.ch.cnt Cnt.CH_CNT_RX_FRAMES = cx.ch.cnt Cnt.CH_CNT_RX_FRAMES + 1 ∧
      cx'.ch.cnt Cnt.CH_CNT_CPL_WRITTEN + cx'.ch.cnt Cnt.CH_CNT_CPL_HELD =
        cx.ch.cnt Cnt.CH_CNT_CPL_WRITTEN + cx.ch.cnt Cnt.CH_CNT_CPL_HELD + 1 ∧ cx'.ch.buf = cx.ch.buf ∧
      (cx.ch.stream.items = [] → cx.ch.stream.closed = false → cx'.ch.stream.items.flatMap StreamItem.rxBytes =
        (cx.frameBytes d.frame.cell d.frame.len).take (cx.deliverLen d.frame d.trunc)) ∧
      (ecc = .none → cx.ch.badRows = [] → Cx.completed cx cx'
        { ring := cx.qRing false q, status := d.status, tx := false, queue := q, nbuf := n, mirror := d.mirror
          trunc := d.trunc, copy := d.copy, ftype := d.frame.ftype, info := d.info
          len := cx.deliverLen d.frame d.trunc
          index := (((cx.rxq q).bufs.filter fun b => !b.used).headD ⟨0, 0, 0, 0, false⟩).idx
          cookie := (((cx.rxq q).bufs.filter fun b => !b.used).headD ⟨0, 0, 0, 0, false⟩).cookie
          time := d.frame.ts, tsValid := true })) ∧
  (∀ (s : State) (c : ChanId) (q : Fin 256) (ecc : EccFault), s.ready c → (s.view c).rxNeed q = none →
    completes (.rxWriteOut c q ecc) s c fun cx cx' => cx' = cx) ∧
  (∀ (s : State) (c : ChanId) (ecc : EccFault) (q : Fin 256) (d : RxDeliv), s.ready c → (s.view c).ringsRun = true →
    ((s.view c).rxq q).frames = [d] → ((s.view c).rxq q).holding = true → (s.view c).rxNeed q = none →
    completes (.rxHoldExpiry ⟨c, ecc⟩ q) s c fun cx cx' =>
      (cx'.rxq q).frames = [] ∧ (cx'.rxq q).bufs = (cx.rxq q).bufs ∧
      cx'.ch.cnt Cnt.CH_CNT_RX_NO_HOST_BUFFER = cx.ch.cnt Cnt.CH_CNT_RX_NO_HOST_BUFFER + 1) ∧
  ∀ (s : State) (c : ChanId) (ecc : EccFault) (q : Fin 256), s.ready c →
    (((s.view c).rxq q).holding = false ∨ ((s.view c).rxNeed q).isSome = true) →
    completes (.rxHoldExpiry ⟨c, ecc⟩ q) s c fun cx cx' => cx' = cx)

/-- CRING_ENABLE of an idle ring sets P and C to START; CRING_DISABLE is accepted only when every queue of the ring is
idle, and IDLE sets with it; with any other write EN stays (R392). CRING_ARM: an accepted index moves C; with P equal
to it the ring is armed, and otherwise the vector is sent at once. An index beyond P is ignored and counted, and with
EN 0 the write is ignored (R390, R400). HELD_COMPLETION_WRITE writes the oldest held completion of a ring with a free
slot: P advances by one. With no free slot nothing happens. CPL_STALL_RELEASE: once there is room the stalled transmit
frame starts and STALLED clears (R394, R395). -/
def Obligations.CompletionRingsRun : Prop :=
  ((∀ (s : State) (c : ChanId) (r : Fin 64) (v : Word), s.takes c → (s.view c).crEn r = false →
    (s.view c).crIdle r = true → 6 ≤ getF v F.CH_CRING_CTL_SIZE_LOG2 →
    (s.view c).flg Reg.CH_DB_BASE_LO F.CH_DB_BASE_LO_VALID = true →
    completes (.cringEnable c r v) s c fun cx cx' =>
      cx'.crEn r = true ∧ cx'.crIdle r = false ∧ cx'.get (Reg.CH_CRING_PROD r) = cx.get (Reg.CH_CRING_START r) ∧
      cx'.get (Reg.CH_CRING_CONS r) = cx.get (Reg.CH_CRING_START r) ∧
      cx'.crSize r = 2 ^ getF v F.CH_CRING_CTL_SIZE_LOG2 ∧
      (∀ o, o ∉ [Reg.CH_CRING_CTL r, Reg.CH_CRING_PROD r, Reg.CH_CRING_CONS r] → cx'.get o = cx.get o)) ∧
  (∀ (s : State) (c : ChanId) (r : Fin 64) (v : Word), s.takes c → (s.view c).crEn r = false →
    (s.view c).crIdle r = false →
    completes (.cringEnable c r v) s c fun cx cx' =>
      cx'.crEn r = false ∧ Cx.onlyEv cx cx' [Reg.CH_CRING_CTL r] []) ∧
  ∀ (s : State) (c : ChanId) (r : Fin 64) (v : Word), s.takes c → (s.view c).crEn r = true →
    completes (.cringDisable c r v) s c fun cx cx' =>
      (cx.crUsersIdle r = true → cx'.crEn r = false ∧ cx'.crIdle r = true) ∧
      (cx.crUsersIdle r = false → cx'.crEn r = true) ∧
      (∀ o, o ≠ Reg.CH_CRING_CTL r → cx'.get o = cx.get o) ∧ cx'.ch.cnts = cx.ch.cnts) ∧
  ((∀ (s : State) (c : ChanId) (r : Fin 64) (t : Word), s.takes c → (s.view c).crEn r = true →
    (s.view c).flg (Reg.CH_CRING_CTL r) F.CH_CRING_CTL_NOTIFY = true →
    idxDiff t ((s.view c).get (Reg.CH_CRING_CONS r)) ≤ (s.view c).crUsed r →
    completes (.cringArm c r t) s c fun cx cx' =>
      cx'.get (Reg.CH_CRING_CONS r) = t ∧
      (t = cx.get (Reg.CH_CRING_PROD r) → cx'.flg (Reg.CH_CRING_CTL r) F.CH_CRING_CTL_ARMED = true ∧
        cx'.ch.cnts = cx.ch.cnts) ∧
      (t ≠ cx.get (Reg.CH_CRING_PROD r) → cx'.ch.cnt Cnt.CH_CNT_CPL_VEC = cx.ch.cnt Cnt.CH_CNT_CPL_VEC + 1 ∧
        cx'.get (Reg.CH_CRING_CTL r) = cx.get (Reg.CH_CRING_CTL r)) ∧
      Chan.sameMems cx.ch cx'.ch) ∧
  (∀ (s : State) (c : ChanId) (r : Fin 64) (t : Word), s.takes c → (s.view c).crEn r = true →
    (s.view c).crUsed r < idxDiff t ((s.view c).get (Reg.CH_CRING_CONS r)) →
    completes (.cringArm c r t) s c fun cx cx' =>
      Cx.onlyEv cx cx' [] [Cnt.CH_CNT_CPL_BAD_CONS] ∧
      cx'.ch.cnt Cnt.CH_CNT_CPL_BAD_CONS = cx.ch.cnt Cnt.CH_CNT_CPL_BAD_CONS + 1) ∧
  ∀ (s : State) (c : ChanId) (r : Fin 64) (t : Word), s.takes c → (s.view c).crEn r = false →
    completes (.cringArm c r t) s c fun cx cx' => cx' = cx) ∧
  ((∀ (s : State) (c : ChanId) (ecc : EccFault) (r : Fin 64) (e : CplEntry) (l : List CplEntry), s.ready c →
    s.chans[c].coreStopped = false → (s.view c).mode ≠ ModeCode.halted → (s.view c).subStopped 2 = false →
    (s.view c).crFree r = true →
    s.chans[c].rings.hold = e :: l → e.ring = r.val →
    completes (.heldCompletionWrite ⟨c, ecc⟩ r) s c fun cx cx' =>
      cx'.ch.rings.hold = l ∧ cx'.get (Reg.CH_CRING_PROD r) = cx.get (Reg.CH_CRING_PROD r) + 1 ∧
      cx'.ch.cnt Cnt.CH_CNT_CPL_WRITTEN = cx.ch.cnt Cnt.CH_CNT_CPL_WRITTEN + 1 ∧
      cx'.get (Reg.CH_CRING_CONS r) = cx.get (Reg.CH_CRING_CONS r) ∧
      (e.tx = true ∨ (cx.rxq e.queue).frames = [] → Chan.sameMems cx.ch cx'.ch)) ∧
  (∀ (s : State) (c : ChanId) (ecc : EccFault) (r : Fin 64), s.ready c →
    ((s.view c).crFree r = false ∨ ∀ e ∈ s.chans[c].rings.hold, e.ring ≠ r.val) →
    completes (.heldCompletionWrite ⟨c, ecc⟩ r) s c fun cx cx' => cx' = cx) ∧
  (∀ (s : State) (c : ChanId) (r : Fin 64) (ecc : EccFault) (q : Fin 256) (d : TxDesc) (ch : List TxDesc), s.ready c →
    (s.view c).ringsRun = true → (s.view c).cplRoom r = true → (s.view c).qRing true q = r.val →
    Sparse.get (fun _ => none) s.chans[c].rings.stalled r.val = some (.tx q.val) → (s.view c).qEn true q = true →
    ((s.view c).txq q).storing = none → ((s.view c).txq q).chain = some (d, ch) →
    min numCells ((s.view c).fld Reg.CH_GR_CFG F.CH_GR_CFG_US_FLOOR) + cellsFor (storedLen d.frameLen) +
      (s.view c).reserved ≤ (s.view c).freeCount → (∀ e ∈ s.chans[c].rings.rxq, e.2.flush = []) →
    completes (.cplStallRelease c r ecc) s c fun cx cx' =>
      cx'.flg (Reg.CH_CRING_STAT r) F.CH_CRING_STAT_STALLED = false ∧ (cx'.txq q).storing.isSome = true ∧
      cx'.reserved = cx.reserved + cellsFor (storedLen d.frameLen) ∧ Chan.sameMems cx.ch cx'.ch) ∧
  ∀ (s : State) (c : ChanId) (r : Fin 64) (ecc : EccFault), s.ready c → (s.view c).cplRoom r = false →
    completes (.cplStallRelease c r ecc) s c fun cx cx' => cx' = cx)

/-! ### Events, vectors and time -/

/-- EVENT_RECORD_HEAD: a record at the head of a stream takes its ring's next slot as a data write in its place, and
its source is no longer pending; on a full ring it is deferred, and on a ring that is not enabled discarded, each
counted. EVENT_DEFERRED_WRITE writes the oldest deferred record of a ring once it has a free slot (R404, R405, R406).
EVR_ENABLE, EVR_DISABLE, EVR_CONS_WRITE, EVR_HOLDOFF_EXPIRY and VEC_UNMASK: an enabled ring starts empty at START; a
disabled one keeps no deferred record; a consumer index is accepted up to P; the moderation timer sends what it noted;
and each vector unmasked while pending is sent once (R390, R392, R406, R407, R408). -/
def Obligations.EventsReachTheirRings : Prop :=
  ((∀ (s : State) (r : EvRec), s.up → s.hl.stream.items = [.event r] → r.source < 512 → r.ring < 16 →
    (s.hl.evrEn r.ring = true → s.hl.evrFree r.ring = true →
      s.hl.flg (Reg.HL_EVR_CTL r.ring) F.HL_EVR_CTL_NOTIFY = false →
      completesHl (.eventRecordHead none) s fun h h' =>
        (let log2 := h.fld (Reg.HL_EVR_CTL r.ring) F.HL_EVR_CTL_SIZE_LOG2
         h'.stream.items = [.data .event (BitVec.ofNat 64 (slotAddr (h.get (Reg.HL_EVR_BASE_LO r.ring))
          (h.get (Reg.HL_EVR_BASE_HI r.ring)) 16 log2 (h.get (Reg.HL_EVR_PROD r.ring))))
          (r.bytes (phaseOf (h.get (Reg.HL_EVR_PROD r.ring)) log2))]) ∧
        h'.get (Reg.HL_EVR_PROD r.ring) = h.get (Reg.HL_EVR_PROD r.ring) + 1 ∧
        h'.flg (Reg.HL_EVSRC r.source) F.HL_EVSRC_PENDING = false ∧
        h'.cnt Cnt.HL_CNT_EV_RECORDS = h.cnt Cnt.HL_CNT_EV_RECORDS + 1 ∧
        Headland.regsBut h h' [Reg.HL_EVR_PROD r.ring, Reg.HL_EVSRC r.source] [Cnt.HL_CNT_EV_RECORDS] ∧
        h' = { h with regs := h'.regs, cnts := h'.cnts, stream := h'.stream }) ∧
    (s.hl.evrEn r.ring = true → s.hl.evrFree r.ring = false →
      ((s.hl.evrAux r.ring).full = true ∨ s.hl.flg (Reg.HL_EVSRC Ev.evrFull) F.HL_EVSRC_PENDING = false) →
      completesHl (.eventRecordHead none) s fun h h' =>
        h'.deferred = h.deferred ++ [r] ∧ h'.cnt Cnt.HL_CNT_EV_DEFERRED = h.cnt Cnt.HL_CNT_EV_DEFERRED + 1 ∧
        h'.get (Reg.HL_EVR_PROD r.ring) = h.get (Reg.HL_EVR_PROD r.ring)) ∧
    (s.hl.evrEn r.ring = false →
      completesHl (.eventRecordHead none) s fun h h' =>
        h'.stream.items = [] ∧ h'.flg (Reg.HL_EVSRC r.source) F.HL_EVSRC_PENDING = false ∧
        h'.cnt Cnt.HL_CNT_EV_DISCARD = h.cnt Cnt.HL_CNT_EV_DISCARD + 1 ∧
        Headland.regsBut h h' [Reg.HL_EVSRC r.source] [Cnt.HL_CNT_EV_DISCARD])) ∧
  (∀ (s : State) (c : ChanId) (r : EvRec), s.ready c → s.chans[c].stream.items = [.event r] → r.source < 512 →
    r.ring < 16 → s.hl.evrEn r.ring = true → s.hl.evrFree r.ring = true →
    s.hl.flg (Reg.HL_EVR_CTL r.ring) F.HL_EVR_CTL_NOTIFY = false →
    completes (.eventRecordHead (some c)) s c fun cx cx' =>
      (∃ a bs, cx'.ch.stream.items = [.data .event a bs]) ∧ cx'.ch = { cx.ch with stream := cx'.ch.stream } ∧
      cx'.hl.get (Reg.HL_EVR_PROD r.ring) = cx.hl.get (Reg.HL_EVR_PROD r.ring) + 1 ∧
      cx'.hl.flg (Reg.HL_EVSRC r.source) F.HL_EVSRC_PENDING = false) ∧
  (∀ (s : State) (n : Fin 16) (r : EvRec), s.up → s.hl.evrEn n = true → s.hl.evrFree n = true →
    (s.hl.deferred.find? fun r => r.ring == n.val) = some r → r.source < 512 →
    completesHl (.eventDeferredWrite n) s fun h h' =>
      h'.deferred = h.deferred.filter (fun x => x.source != r.source) ∧
      h'.get (Reg.HL_EVR_PROD n) = h.get (Reg.HL_EVR_PROD n) + 1 ∧
      h'.flg (Reg.HL_EVSRC r.source) F.HL_EVSRC_PENDING = false ∧
      h'.cnt Cnt.HL_CNT_EV_RECORDS = h.cnt Cnt.HL_CNT_EV_RECORDS + 1) ∧
  ∀ (s : State) (n : Fin 16), s.up → (s.hl.evrEn n = false ∨ s.hl.evrFree n = false ∨ ∀ r ∈ s.hl.deferred, r.ring ≠ n.val) →
    completesHl (.eventDeferredWrite n) s fun h h' => h' = h) ∧
  ((∀ (s : State) (n : Fin 16) (v : Word), s.listens → s.hl.evrEn n = false → 6 ≤ getF v F.HL_EVR_CTL_SIZE_LOG2 →
    getF v F.HL_EVR_CTL_SIZE_LOG2 ≤ 12 →
    completesHl (.evrEnable n v) s fun h h' =>
      h'.evrEn n = true ∧ h'.flg (Reg.HL_EVR_CTL n) F.HL_EVR_CTL_IDLE = false ∧
      h'.get (Reg.HL_EVR_PROD n) = h.get (Reg.HL_EVR_START n) ∧ h'.get (Reg.HL_EVR_CONS n) = h.get (Reg.HL_EVR_START n) ∧
      h'.evrSize n = 2 ^ getF v F.HL_EVR_CTL_SIZE_LOG2 ∧
      Headland.regsBut h h' [Reg.HL_EVR_CTL n, Reg.HL_EVR_PROD n, Reg.HL_EVR_CONS n] [] ∧
      h' = { h with regs := h'.regs, evr := h'.evr }) ∧
  (∀ (s : State) (n : Fin 16) (v : Word), s.listens → s.hl.evrEn n = true → (∀ r ∈ s.hl.deferred, r.source < 512) →
    completesHl (.evrDisable n v) s fun h h' =>
      h'.evrEn n = false ∧ h'.flg (Reg.HL_EVR_CTL n) F.HL_EVR_CTL_IDLE = true ∧
      h'.deferred = h.deferred.filter (fun r => r.ring != n.val) ∧
      h'.cnt Cnt.HL_CNT_EV_DISCARD = h.cnt Cnt.HL_CNT_EV_DISCARD +
        BitVec.ofNat 64 (h.deferred.filter fun r => r.ring == n.val).length ∧ h'.stream = h.stream) ∧
  (∀ (s : State) (n : Fin 16) (t : Word), s.listens →
    completesHl (.evrConsWrite n t) s fun h h' =>
      (idxDiff t (h.get (Reg.HL_EVR_CONS n)) ≤ h.evrUsed n → h'.get (Reg.HL_EVR_CONS n) = t ∧ h'.cnts = h.cnts) ∧
      (h.evrUsed n < idxDiff t (h.get (Reg.HL_EVR_CONS n)) → h' = h.inc Cnt.HL_CNT_EV_BAD_CONS)) ∧
  (∀ (s : State) (n : Fin 16), s.up → (s.hl.evrAux n).timer = true →
    ((s.hl.evrAux n).noted = false → completesHl (.evrHoldoffExpiry n) s fun h h' =>
      h' = h.setEvrAux n { h.evrAux n with timer := false }) ∧
    ((s.hl.evrAux n).noted = true → s.hl.stream.items = [] → s.hl.fatal = false → s.hl.pins.testEn = false →
      s.hl.get Reg.HL_VEC_MASK_LO = 0 → s.hl.get Reg.HL_VEC_MASK_HI = 0 →
      completesHl (.evrHoldoffExpiry n) s fun h h' =>
        h'.evrAux n = { h.evrAux n with noted := false } ∧
        h'.pins.vecLast = some (h.fld (Reg.HL_EVR_CTL n) F.HL_EVR_CTL_VECTOR) ∧
        h'.cnt Cnt.HL_CNT_VEC_MSGS = h.cnt Cnt.HL_CNT_VEC_MSGS + 1 ∧ (∀ o, h'.get o = h.get o))) ∧
  ∀ (s : State) (v : Word), s.listens →
    completesHl (.vecUnmask false v) s fun h h' =>
      h'.get Reg.HL_VEC_MASK_LO = v ∧ h'.get Reg.HL_VEC_PEND_LO = h.get Reg.HL_VEC_PEND_LO &&& v ∧
      h'.cnt Cnt.HL_CNT_VEC_MSGS = h.cnt Cnt.HL_CNT_VEC_MSGS +
        BitVec.ofNat 64 ((List.range 32).filter fun b => (h.get Reg.HL_VEC_PEND_LO).getLsbD b && !v.getLsbD b).length ∧
      Headland.regsBut h h' [Reg.HL_VEC_MASK_LO, Reg.HL_VEC_PEND_LO] [Cnt.HL_CNT_VEC_MSGS])

/-- STU_ADJ adds HL_STU_ADJ_NS to calendar time and STU_SET loads it; each counts a step and neither touches the tick
count. STU_SNAPSHOT copies the counts into its registers (R411, R412, R424, R425). TU_MSG_ARM holds the announced SFC
and time until the line frame that they name, unless that has gone by, which is counted as lost. TSQ_POP takes the
oldest timestamp and nothing else (R430, R432, R441). -/
def Obligations.CalendarOffsetsAndTimestamps : Prop :=
  ((∀ s : State, s.listens → completesHl .stuAdj s fun h h' =>
    h'.stu.cal = (((h.stu.cal : Int) + signed 64 ((h.get Reg.HL_STU_ADJ_NS_LO).toNat +
      2 ^ 32 * (h.get Reg.HL_STU_ADJ_NS_HI).toNat) * 2 ^ 48) % ((calSecond * 2 ^ 48 : Nat) : Int)).toNat ∧
    h'.stu.tick = h.stu.tick ∧ h'.stu.frac = h.stu.frac ∧
    h' = { h.inc Cnt.HL_CNT_STU_STEPS with stu := h'.stu }) ∧
  (∀ s : State, s.listens → completesHl .stuSet s fun h h' =>
    h'.stu.sec = (h.get Reg.HL_STU_SET_SEC_LO).toNat +
      2 ^ 32 * h.fld Reg.HL_STU_SET_SEC_HI F.HL_STU_SET_SEC_HI_SEC_HI ∧
    (h.fld Reg.HL_STU_SET_NS F.HL_STU_SET_NS_NS < 1000000000 → h'.stu.ns = h.fld Reg.HL_STU_SET_NS F.HL_STU_SET_NS_NS) ∧
    h'.stu.calFrac = 0 ∧ h'.stu.tick = h.stu.tick ∧ h'.stu.frac = h.stu.frac ∧
    h' = { h.inc Cnt.HL_CNT_STU_STEPS with stu := h'.stu }) ∧
  ∀ s : State, s.listens → completesHl .stuSnapshot s fun h h' =>
    h'.get Reg.HL_STU_SNAP_TICK_LO = BitVec.extractLsb' 0 32 h.stu.tick ∧
    h'.get Reg.HL_STU_SNAP_TICK_HI = BitVec.extractLsb' 32 32 h.stu.tick ∧
    h'.get Reg.HL_STU_SNAP_SEC_LO = BitVec.ofNat 32 h.stu.sec ∧ h'.get Reg.HL_STU_SNAP_NS = BitVec.ofNat 32 h.stu.ns ∧
    Headland.only h h' [Reg.HL_STU_SNAP_TICK_LO, Reg.HL_STU_SNAP_TICK_HI, Reg.HL_STU_SNAP_SEC_LO,
      Reg.HL_STU_SNAP_SEC_HI, Reg.HL_STU_SNAP_NS, Reg.HL_STU_SNAP_FRAC] []) ∧
  ((∀ (s : State) (c : ChanId) (sfc : BitVec 51) (sec : BitVec 48) (ns : BitVec 30) (teqd : Word), s.ready c →
    s.chans[c].coreStopped = false → (s.view c).mode ≠ ModeCode.halted → s.hl.fwUp = true →
    completes (.tuMsgArm c sfc sec ns teqd) s c fun cx cx' =>
      cx'.armSfc = sfc.toNat ∧ cx'.get Reg.CH_TU_MSG_SEC_LO = BitVec.extractLsb' 0 32 sec ∧
      cx'.fld Reg.CH_TU_MSG_NS F.CH_TU_MSG_NS_NS = ns.toNat ∧ cx'.get Reg.CH_TU_TEQD = teqd ∧
      (cx.guard ≠ Guard.accept ∨ cx.dsSfc < sfc.toNat → cx'.armPending = true ∧ cx'.ch.cnts = cx.ch.cnts) ∧
      (cx.guard = Guard.accept → sfc.toNat ≤ cx.dsSfc → cx'.armPending = false ∧
        cx'.ch.cnt Cnt.CH_CNT_TU_MSG_LOST = cx.ch.cnt Cnt.CH_CNT_TU_MSG_LOST + 1) ∧
      Cx.only cx cx' [Reg.CH_TU_MSG_SFC_LO, Reg.CH_TU_MSG_SFC_HI, Reg.CH_TU_MSG_SEC_LO, Reg.CH_TU_MSG_SEC_HI,
        Reg.CH_TU_MSG_NS, Reg.CH_TU_TEQD, Reg.CH_TU_MSG_ARM] [Cnt.CH_CNT_TU_MSG_LOST]) ∧
  ∀ (s : State) (c : ChanId), s.takes c →
    completes (.tsqPop c) s c fun cx cx' => cx' = { cx with ch := { cx.ch with tsq := cx.ch.tsq.tail } })

/-- STU_SOURCE_CHANGE: a write that keeps the source changes HL_STU_CTL alone; from no source to PPS the servo is FREE
and keeps its integral and its frequency, and to a channel that channel's unit is zeroed. SOURCE_INVALID takes ACQUIRE
to FREE and LOCKED to HOLDOVER, but for a channel in Stop, whose unit keeps its state; HOLDOVER_EXPIRY with HOLD_MAX
takes HOLDOVER to FREE, but in Stop; INTEG_WRITE is accepted only in FREE, where a value other than the present one is
taken as y too (R418, R419, R428, R435, R438, R656). -/
def Obligations.ServoSourcesAndStates : Prop :=
  (∀ (s : State) (v : Word), s.listens →
    getF (v &&& 0x31F03) F.HL_STU_CTL_SRC = s.hl.stuSrc →
    getF (v &&& 0x31F03) F.HL_STU_CTL_CHAN = s.hl.fld Reg.HL_STU_CTL F.HL_STU_CTL_CHAN →
    completesHl (.stuSourceChange v) s fun h h' => h' = h.put Reg.HL_STU_CTL (v &&& 0x31F03)) ∧
  (∀ (s : State) (v : Word), s.listens → s.hl.stuSrc = 0 → getF (v &&& 0x31F03) F.HL_STU_CTL_SRC = 2 →
    completesHl (.stuSourceChange v) s fun h h' =>
      h'.stuSrc = 2 ∧ h'.flg Reg.HL_STU_STATUS F.HL_STU_STATUS_SRC_VALID = false ∧
      h'.stuServo.st = ServoState.free ∧ h'.get Reg.HL_STU_FREQ = h.get Reg.HL_STU_FREQ ∧
      h'.get Reg.HL_STU_INTEG = h.get Reg.HL_STU_INTEG ∧ h'.pps.last = none ∧
      h'.stu = h.stu) ∧
  (∀ (s : State) (v : Word) (c : ChanId), s.listens → s.hl.stuSrc = 0 → getF (v &&& 0x31F03) F.HL_STU_CTL_SRC = 1 →
    getF (v &&& 0x31F03) F.HL_STU_CTL_CHAN = c.val →
    completes (.stuSourceChange v) s c fun _ cx' =>
      cx'.isStuSource = true ∧ cx'.flg Reg.CH_TU_STATUS F.CH_TU_STATUS_STU_SOURCE = true ∧ cx'.ch.phase = 0 ∧
      cx'.get Reg.CH_TU_FREQ = 0) ∧
  (∀ s : State, s.up → s.hl.stuSrc = 2 → s.hl.flg Reg.HL_STU_STATUS F.HL_STU_STATUS_SRC_VALID = true →
    completesHl (.sourceInvalid none) s fun h h' =>
      h'.flg Reg.HL_STU_STATUS F.HL_STU_STATUS_SRC_VALID = false ∧
      h'.cnt Cnt.HL_CNT_STU_SRC_LOST = h.cnt Cnt.HL_CNT_STU_SRC_LOST + 1 ∧ h'.stu = h.stu ∧
      (h.stuServo.st = ServoState.acquire → h'.stuServo.st = ServoState.free) ∧
      (h.stuServo.st = ServoState.locked → h'.stuServo.st = ServoState.holdover)) ∧
  (∀ (s : State) (c : ChanId), s.ready c → (s.view c).tuEligible = false → s.chans[c].tu.valid = true →
    (s.view c).isStuSource = false →
    completes (.sourceInvalid (some c)) s c fun cx cx' =>
      cx'.ch.tu.valid = false ∧ cx'.armPending = false ∧
      (cx.mode = ModeCode.stop → cx'.tuServo = cx.tuServo) ∧
      (cx.mode ≠ ModeCode.stop → cx.tuServo.st = ServoState.acquire → cx'.tuServo.st = ServoState.free) ∧
      (cx.mode ≠ ModeCode.stop → cx.tuServo.st = ServoState.locked → cx'.tuServo.st = ServoState.holdover)) ∧
  (∀ (s : State) (c : ChanId), s.ready c → (s.view c).isStuSource = false → (s.view c).mode ≠ ModeCode.stop →
    s.chans[c].coreStopped = false → (s.view c).tuServo.st = ServoState.holdover → (s.view c).fld Reg.CH_TU_LIMITS F.CH_TU_LIMITS_HOLD_MAX ≠ 0 →
    completes (.holdoverExpiry (some c)) s c fun cx cx' =>
      cx'.tuServo.st = ServoState.free ∧ cx'.get Reg.CH_TU_FREQ = cx.get Reg.CH_TU_INTEG ∧
      cx'.get Reg.CH_TU_INTEG = cx.get Reg.CH_TU_INTEG ∧ cx'.ch.phase = cx.ch.phase) ∧
  (∀ (s : State) (c : ChanId), s.ready c → ((s.view c).mode = ModeCode.stop ∨ s.chans[c].coreStopped = true) →
    completes (.holdoverExpiry (some c)) s c fun cx cx' => cx' = cx) ∧
  (∀ s : State, s.up → s.hl.stuChan = none → s.hl.stuServo.st = ServoState.holdover →
    s.hl.fld Reg.HL_STU_LIMITS F.HL_STU_LIMITS_HOLD_MAX ≠ 0 →
    completesHl (.holdoverExpiry none) s fun h h' =>
      h'.stuServo.st = ServoState.free ∧ h'.get Reg.HL_STU_FREQ = h.get Reg.HL_STU_INTEG ∧
      h'.get Reg.HL_STU_INTEG = h.get Reg.HL_STU_INTEG ∧ h'.stu = h.stu) ∧
  (∀ (s : State) (c : ChanId) (v : Word), s.takes c →
    ((s.view c).tuServo.st = ServoState.free → (s.view c).isStuSource = false → (s.view c).get Reg.CH_TU_INTEG ≠ v →
      completes (.integWrite (some c) v) s c fun cx cx' =>
        cx'.get Reg.CH_TU_INTEG = v ∧ cx'.get Reg.CH_TU_FREQ = v ∧ Cx.only cx cx' [Reg.CH_TU_INTEG, Reg.CH_TU_FREQ] []) ∧
    ((s.view c).tuServo.st = ServoState.free → (s.view c).isStuSource = true → (s.view c).get Reg.CH_TU_INTEG ≠ v →
      completes (.integWrite (some c) v) s c fun cx cx' => cx' = cx.put Reg.CH_TU_INTEG v) ∧
    ((s.view c).tuServo.st ≠ ServoState.free ∨ (s.view c).get Reg.CH_TU_INTEG = v →
      completes (.integWrite (some c) v) s c fun cx cx' => cx' = cx)) ∧
  ∀ (s : State) (v : Word), s.listens →
    (s.hl.stuServo.st = ServoState.free → s.hl.get Reg.HL_STU_INTEG ≠ v →
      completesHl (.integWrite none v) s fun h h' =>
        h'.get Reg.HL_STU_INTEG = v ∧ h'.get Reg.HL_STU_FREQ = v ∧
        Headland.only h h' [Reg.HL_STU_INTEG, Reg.HL_STU_FREQ] []) ∧
    (s.hl.stuServo.st ≠ ServoState.free ∨ s.hl.get Reg.HL_STU_INTEG = v →
      completesHl (.integWrite none v) s fun h h' => h' = h)

/-- PPS_IN_EDGE: an edge accepted by R420 is a sample and the last accepted edge; another counts as bad.
PPS_GAP_TIMEOUT counts, PPS_OUT_RISE and PPS_OUT_FALL move the pin, TOD_OUT_SEND sends the message of the second that
began, and TOD_IN_MESSAGE gives a sound message's seconds to the next edge and counts any other (R420, R422, R616,
R617). -/
def Obligations.PpsAndTimeOfDay : Prop :=
  (∀ s : State, s.up →
    (s.hl.stuSrc = 2 → s.hl.ppsAccept = true → completesHl .ppsInEdge s fun h h' =>
      h'.pps.last = some h.stu.tick ∧ h'.get Reg.HL_STU_OFFSET = satOffset h.ppsOffset ∧
      h'.flg Reg.HL_STU_PPS_SEC_HI F.HL_STU_PPS_SEC_HI_VALID = false ∧
      h'.flg Reg.HL_STU_STATUS F.HL_STU_STATUS_SRC_VALID = true ∧
      h'.cnt Cnt.HL_CNT_STU_SAMPLES = h.cnt Cnt.HL_CNT_STU_SAMPLES + 1 ∧ h'.stu.tick = h.stu.tick) ∧
    (s.hl.stuSrc ≠ 2 ∨ s.hl.ppsAccept = false → completesHl .ppsInEdge s fun h h' => h' = h.inc Cnt.HL_CNT_STU_PPS_BAD) ∧
    completesHl .ppsGapTimeout s fun h h' => h' = h.inc Cnt.HL_CNT_STU_PPS_BAD) ∧
  (∀ s : State, s.up → s.hl.flg Reg.HL_STU_CTL F.HL_STU_CTL_PPS_OUT_EN = true →
    completesHl .ppsOutRise s fun h h' => h'.pins.pps = true ∧ h'.pps.todDue = some h.nextSecond ∧
      h' = { h with pins := { h.pins with pps := h'.pins.pps }, pps := { h.pps with todDue := h'.pps.todDue } }) ∧
  (∀ s : State, s.up → completesHl .ppsOutFall s fun h h' => h' = { h with pins := { h.pins with pps := false } }) ∧
  (∀ (s : State) (sec : Nat), s.up → s.hl.pps.todDue = some sec →
    s.hl.flg Reg.HL_STU_CTL F.HL_STU_CTL_TOD_OUT_EN = true →
    (s.hl.outputsReset = false → completesHl .todOutSend s fun h h' =>
      (∃ m, h'.pins.todLast = some m ∧ m.length = 16 ∧ m.take 3 = [0xC3, 0x3C, 0x01] ∧
        beNat ((m.drop 4).take 6) = sec % 2 ^ 48 ∧ be16 m 14 = crc16 (m.take 14)) ∧
      h'.pps.todDue = none ∧ h' = { h with
        pins := { h.pins with todLast := h'.pins.todLast, todAt := h.stu.tick }, pps := h'.pps }) ∧
    (s.hl.outputsReset = true → completesHl .todOutSend s fun h h' => h' = h)) ∧
  ∀ (s : State) (m : List Byte) (inTime : Bool), s.up → s.hl.fwUp = true →
    (todOk m = true → inTime = true → completesHl (.todInMessage m inTime) s fun h h' =>
      (h'.get Reg.HL_STU_PPS_SEC_LO).toNat + 2 ^ 32 * h'.fld Reg.HL_STU_PPS_SEC_HI F.HL_STU_PPS_SEC_HI_SEC_HI =
        beNat ((m.drop 4).take 6) ∧
      h'.flg Reg.HL_STU_PPS_SEC_HI F.HL_STU_PPS_SEC_HI_VALID = true ∧
      Headland.only h h' [Reg.HL_STU_PPS_SEC_LO, Reg.HL_STU_PPS_SEC_HI] []) ∧
    (todOk m = false ∨ inTime = false → completesHl (.todInMessage m inTime) s fun h h' =>
      h' = h.inc Cnt.HL_CNT_STU_TOD_BAD)

/-! ### The Drill -/

/-- DRILL_WRITE copies the staging registers into the entry, sets REMAIN to COUNT and clears FIRED and RESULT, or is
refused with ERR and writes nothing. DRILL_READ copies the entry into the staging registers. DRILL_DISARM clears EN
and sets STATE to IDLE. An occurrence of the entry that is due in the same cycle takes place first (R447). -/
def Obligations.DrillEntriesWritten : Prop :=
  (∀ (s : State) (c : ChanId) (e : Fin 256), s.takes c → e.val < 64 → (s.view c).dueUpTo e = [] →
    ((s.view c).staged.chRefused = false → completes (.drillWrite (some c) e) s c fun cx cx' =>
      cx'.drillAt e = cx.staged.entry (cx.staged.timeLo.toNat * 65536 + getF cx.staged.frac F.HL_DRILL_S_FRAC_TIME_FRAC) ∧
      (cx'.drillAt e).remain = getF (cx.get Reg.CH_DRILL_S_COUNT) F.HL_DRILL_S_COUNT_COUNT ∧
      (cx'.drillAt e).fired = 0 ∧ (cx'.drillAt e).result = 0 ∧
      (∀ n, n ≠ e.val → cx'.drillAt n = cx.drillAt n) ∧ cx'.flg Reg.CH_DRILL_CMD F.CH_DRILL_CMD_ERR = false ∧
      Cx.regsBut cx cx' [Reg.CH_DRILL_CMD] [] ∧ cx' = { cx with ch := { cx.ch with
        regs := cx'.ch.regs, drill := cx'.ch.drill, drillQ := cx.ch.drillQ.filter (· != e.val) } }) ∧
    ((s.view c).staged.chRefused = true → completes (.drillWrite (some c) e) s c fun cx cx' =>
      cx'.flg Reg.CH_DRILL_CMD F.CH_DRILL_CMD_ERR = true ∧ Cx.onlyEv cx cx' [Reg.CH_DRILL_CMD] []) ∧
    completes (.drillRead (some c) e) s c fun cx cx' =>
      cx'.get Reg.CH_DRILL_S_TIME_LO = (cx.drillAt e).staged.timeLo ∧ cx'.get Reg.CH_DRILL_S_FRAC = (cx.drillAt e).staged.frac ∧
      cx'.get Reg.CH_DRILL_S_PERIOD = (cx.drillAt e).staged.period ∧ cx'.get Reg.CH_DRILL_S_ACT = (cx.drillAt e).staged.act ∧
      cx'.get Reg.CH_DRILL_S_TARGET = (cx.drillAt e).staged.target ∧ cx'.get Reg.CH_DRILL_S_COUNT = (cx.drillAt e).staged.count ∧
      cx'.get Reg.CH_DRILL_S_STATUS = (cx.drillAt e).staged.status ∧
      Cx.only cx cx' [Reg.CH_DRILL_S_TIME_LO, Reg.CH_DRILL_S_FRAC, Reg.CH_DRILL_S_PERIOD, Reg.CH_DRILL_S_ACT,
        Reg.CH_DRILL_S_TARGET, Reg.CH_DRILL_S_COUNT, Reg.CH_DRILL_S_STATUS] []) ∧
  (∀ (s : State) (c : ChanId) (e : Fin 256), s.takes c → e.val < 64 → (s.view c).dueUpTo e = [] →
    completes (.drillDisarm (some c) e) s c fun cx cx' =>
      cx'.drillAt e = { cx.drillAt e with en := false, state := DrState.idle } ∧
      (∀ n, n ≠ e.val → cx'.drillAt n = cx.drillAt n) ∧ cx' = { cx with ch := { cx.ch with
        drill := cx'.ch.drill, drillQ := cx.ch.drillQ.filter (· != e.val) } }) ∧
  (∀ (s : State) (c : ChanId) (e : Fin 256), s.takes c → e.val < 64 → (s.view c).dueUpTo e = [e.val] →
    ((s.view c).drillAt e).period = 0 → ((s.view c).drillAt e).action = DrAct.gateClose →
    0 ≤ shortDiff ((s.view c).drillAt e).time (s.view c).time16 →
    completes (.drillDisarm (some c) e) s c fun cx cx' =>
      cx'.flg (Reg.CH_DRILL_GATE ((cx.drillAt e).target % 256 / 32)) ⟨(cx.drillAt e).target % 32, 1⟩ = true ∧
      cx'.ch.cnt Cnt.CH_CNT_DRILL_FIRED = cx.ch.cnt Cnt.CH_CNT_DRILL_FIRED + 1 ∧
      (cx'.drillAt e).fired = min 65535 ((cx.drillAt e).fired + 1) ∧ (cx'.drillAt e).en = false ∧
      (cx'.drillAt e).state = DrState.idle) ∧
  ∀ (s : State) (e : Fin 256), s.listens → s.hl.dueUpTo e = [] →
    (s.hl.staged.hlRefused = false → completesHl (.drillWrite none e) s fun h h' =>
      h'.drillAt e = h.staged.entry (h.stagedTime h.staged) ∧ (∀ n, n ≠ e.val → h'.drillAt n = h.drillAt n) ∧
      h'.flg Reg.HL_DRILL_CMD F.HL_DRILL_CMD_ERR = false ∧ Headland.regsBut h h' [Reg.HL_DRILL_CMD] [] ∧
      h' = { h with regs := h'.regs, drill := h'.drill, drillQ := h.drillQ.filter (· != e.val) }) ∧
    (s.hl.staged.hlRefused = true → completesHl (.drillWrite none e) s fun h h' =>
      h'.flg Reg.HL_DRILL_CMD F.HL_DRILL_CMD_ERR = true ∧ Headland.only h h' [Reg.HL_DRILL_CMD] []) ∧
    (completesHl (.drillRead none e) s fun h h' =>
      h'.staged = (h.drillAt e).staged ∧ Headland.only h h' [Reg.HL_DRILL_S_TIME_LO, Reg.HL_DRILL_S_TIME_HI,
        Reg.HL_DRILL_S_FRAC, Reg.HL_DRILL_S_PERIOD, Reg.HL_DRILL_S_ACT, Reg.HL_DRILL_S_TARGET, Reg.HL_DRILL_S_COUNT,
        Reg.HL_DRILL_S_STATUS] []) ∧
    completesHl (.drillDisarm none e) s fun h h' =>
      h'.drillAt e = { h.drillAt e with en := false, state := DrState.idle } ∧
      (∀ n, n ≠ e.val → h'.drillAt n = h.drillAt n) ∧
      h' = { h with drill := h'.drill, drillQ := h.drillQ.filter (· != e.val) }

/-- DRILL_FIRE of an entry of the firing queue that is due and fires once: in the cycle that holds T a gate action
sets its gate and counts in FIRED; after that cycle an entry without LATE_OK performs nothing, counts in MISSED and
its late source is pending. In both cases the entry ends DONE with EN clear. Of two gate actions due in one cycle the
one of higher number is applied last. A Headland PULSE on time begins one pulse on its output. Where no entry up to
that number is due, nothing changes (R448, R449, R452, R453, R456). -/
def Obligations.DrillEntriesFire : Prop :=
  (∀ (s : State) (c : ChanId) (n : Fin 256) (e : DrillEntry), s.ready c → n.val < 64 → (s.view c).drillAt n = e →
    (s.view c).dueUpTo n = [n.val] → e.period = 0 →
    (e.action = DrAct.gateClose ∨ e.action = DrAct.gateOpen →
      0 ≤ shortDiff e.time (s.view c).time16 →
      completes (.drillFire (some c) n) s c fun cx cx' =>
        (∀ b : Fin 32, (cx'.get (Reg.CH_DRILL_GATE (e.target % 256 / 32))).getLsbD b =
          if b.val = e.target % 32 then e.action == DrAct.gateClose
          else (cx.get (Reg.CH_DRILL_GATE (e.target % 256 / 32))).getLsbD b) ∧
        (cx'.drillAt n).en = false ∧ (cx'.drillAt n).state = DrState.done ∧
        (cx'.drillAt n).result = DrResult.onTime ∧ (cx'.drillAt n).fired = min 65535 (e.fired + 1) ∧
        (∀ k, k ≠ n.val → cx'.drillAt k = cx.drillAt k) ∧
        cx'.ch.cnt Cnt.CH_CNT_DRILL_FIRED = cx.ch.cnt Cnt.CH_CNT_DRILL_FIRED + 1 ∧
        Cx.regsBut cx cx' [Reg.CH_DRILL_GATE (e.target % 256 / 32)] [Cnt.CH_CNT_DRILL_FIRED] ∧
        cx' = { cx with
          ch := { cx.ch with regs := cx'.ch.regs, cnts := cx'.ch.cnts, drill := cx'.ch.drill, drillQ := cx'.ch.drillQ } } ∧
        n.val ∉ cx'.ch.drillQ) ∧
    (e.lateOk = false → shortDiff e.time (s.view c).time16 < 0 → s.hl.deferred = [] →
      completes (.drillFire (some c) n) s c fun cx cx' =>
        (cx'.drillAt n).en = false ∧ (cx'.drillAt n).state = DrState.done ∧
        (cx'.drillAt n).result = DrResult.missed ∧ (cx'.drillAt n).fired = e.fired ∧
        cx'.ch.cnt Cnt.CH_CNT_DRILL_MISSED = cx.ch.cnt Cnt.CH_CNT_DRILL_MISSED + 1 ∧
        Cx.regsBut cx cx' [] [Cnt.CH_CNT_DRILL_MISSED] ∧ Headland.evented cx.hl cx'.hl ∧
        Cx.raised cx cx' Ev.drillLate)) ∧
  (∀ (s : State) (c : ChanId) (m n : Fin 256), s.ready c → n.val < 64 → m.val < n.val →
    (s.view c).dueUpTo n = [m.val, n.val] →
    (∀ k ∈ [m.val, n.val], ((s.view c).drillAt k).period = 0 ∧
      0 ≤ shortDiff ((s.view c).drillAt k).time (s.view c).time16) →
    ((s.view c).drillAt m).action = DrAct.gateOpen → ((s.view c).drillAt n).action = DrAct.gateClose →
    ((s.view c).drillAt m).target % 256 = ((s.view c).drillAt n).target % 256 →
    completes (.drillFire (some c) n) s c fun cx cx' =>
      cx'.flg (Reg.CH_DRILL_GATE ((cx.drillAt n).target % 256 / 32)) ⟨(cx.drillAt n).target % 32, 1⟩ = true ∧
      (cx'.drillAt m).result = DrResult.onTime ∧ (cx'.drillAt n).result = DrResult.onTime ∧
      cx'.ch.cnt Cnt.CH_CNT_DRILL_FIRED = cx.ch.cnt Cnt.CH_CNT_DRILL_FIRED + 2) ∧
  (∀ (s : State) (c : ChanId) (n : Fin 256), s.ready c → (s.view c).dueUpTo n = [] →
    completes (.drillFire (some c) n) s c fun cx cx' => cx' = cx) ∧
  (∀ (s : State) (n : Fin 256) (e : DrillEntry), s.up → s.hl.drillAt n = e → s.hl.dueUpTo n = [n.val] → e.period = 0 →
    e.action = DrAct.pulse → s.hl.stu.time16 ≤ e.time →
    completesHl (.drillFire none n) s fun h h' =>
      (Sparse.get noPulse h'.pins.trig (e.target % 16)).length = (Sparse.get noPulse h.pins.trig (e.target % 16)).length + 1 ∧
      (∀ k, k ≠ e.target % 16 → Sparse.get noPulse h'.pins.trig k = Sparse.get noPulse h.pins.trig k) ∧
      (h'.drillAt n).en = false ∧ (h'.drillAt n).state = DrState.done ∧ (h'.drillAt n).result = DrResult.onTime ∧
      (∀ k, k ≠ n.val → h'.drillAt k = h.drillAt k) ∧
      h'.cnt Cnt.HL_CNT_DRILL_FIRED = h.cnt Cnt.HL_CNT_DRILL_FIRED + 1 ∧
      Headland.regsBut h h' [] [Cnt.HL_CNT_DRILL_FIRED]) ∧
  ∀ (s : State) (n : Fin 256), s.up → s.hl.dueUpTo n = [] →
    completesHl (.drillFire none n) s fun h h' => h' = h

/-- PULSE_END takes the pulse that ends first off its output. CAPTURE_ARM writes the control register and arms the
input with ARM = 1; CAPTURE_EDGE at an armed input that selects the edge stores the time in eighths of a ns, at its
place in the cycle, counts, and disarms a single capture; of a second edge in the same cycle nothing is captured;
CAPTURE_TIMEOUT of a window in which no edge came disarms the input and sets TIMEOUT (R452 to R455). -/
def Obligations.TriggersAndCaptures : Prop :=
  (∀ (s : State) (n : Fin 16) (e : DWord), s.up → Sparse.get noPulse s.hl.pins.trig n = [e] →
    completesHl (.pulseEnd n) s fun h h' =>
      Sparse.get noPulse h'.pins.trig n = [] ∧
      (∀ k, k ≠ n.val → Sparse.get noPulse h'.pins.trig k = Sparse.get noPulse h.pins.trig k) ∧
      h' = { h with pins := { h.pins with trig := h'.pins.trig } }) ∧
  (∀ (s : State) (n : Fin 8) (v : Word), s.listens → getB v F.HL_DRILL_CAP_CTL_ARM = true →
    completesHl (.captureArm n v) s fun h h' =>
      h'.flg (Reg.HL_DRILL_CAP_CTL n) F.HL_DRILL_CAP_CTL_ARM = true ∧
      h'.fld (Reg.HL_DRILL_CAP_CTL n) F.HL_DRILL_CAP_CTL_EDGE = getF v F.HL_DRILL_CAP_CTL_EDGE ∧
      Sparse.get noEnd h'.pins.capEnd n = (if getF v F.HL_DRILL_CAP_CTL_WINDOW_US = 0 then none
        else some (BitVec.ofNat 64 (h.stu.tick.toNat + 1000 * getF v F.HL_DRILL_CAP_CTL_WINDOW_US))) ∧
      Headland.regsBut h h' [Reg.HL_DRILL_CAP_CTL n] [] ∧
      h' = { h with regs := h'.regs, pins := { h.pins with capEnd := h'.pins.capEnd } }) ∧
  (∀ (s : State) (n : Fin 8) (rising : Bool) (place : Fin 8), s.up → s.hl.deferred = [] → s.hl.fatal = false →
    Sparse.get noEnd s.hl.pins.capAt n ≠ some s.hl.stu.tick → s.hl.flg (Reg.HL_DRILL_CAP_CTL n) F.HL_DRILL_CAP_CTL_ARM = true →
    nbit (s.hl.fld (Reg.HL_DRILL_CAP_CTL n) F.HL_DRILL_CAP_CTL_EDGE) (if rising then 0 else 1) = true →
    completesHl (.captureEdge n ⟨rising, place⟩) s fun h h' =>
      (h'.get (Reg.HL_DRILL_CAP_TS_LO n)).toNat + 2 ^ 32 * (h'.get (Reg.HL_DRILL_CAP_TS_HI n)).toNat =
        (h.stu.tick.toNat * 8 + h.stu.frac / 2 ^ 45 + place.val) % 2 ^ 64 ∧
      h'.flg (Reg.HL_DRILL_CAP_CTL n) F.HL_DRILL_CAP_CTL_ARM = h.flg (Reg.HL_DRILL_CAP_CTL n) F.HL_DRILL_CAP_CTL_CONT ∧
      h'.cnt Cnt.HL_CNT_DRILL_CAPTURES = h.cnt Cnt.HL_CNT_DRILL_CAPTURES + 1 ∧ h'.drill = h.drill ∧ h'.stu = h.stu ∧
      Sparse.get noEnd h'.pins.capEnd n = none ∧
      Headland.raised h h' (Ev.capture + n.val)) ∧
  (∀ (s : State) (n : Fin 8) (e : Edge), s.up → Sparse.get noEnd s.hl.pins.capAt n = some s.hl.stu.tick →
    completesHl (.captureEdge n e) s fun h h' => h' = h) ∧
  ∀ (s : State) (n : Fin 8), s.up → s.hl.flg (Reg.HL_DRILL_CAP_CTL n) F.HL_DRILL_CAP_CTL_ARM = true →
    (Sparse.get noEnd s.hl.pins.capEnd n).isSome →
    completesHl (.captureTimeout n) s fun h h' =>
      h'.flg (Reg.HL_DRILL_CAP_CTL n) F.HL_DRILL_CAP_CTL_ARM = false ∧
      h'.flg (Reg.HL_DRILL_CAP_CTL n) F.HL_DRILL_CAP_CTL_TIMEOUT = true ∧
      h'.cnt Cnt.HL_CNT_DRILL_CAP_TIMEOUT = h.cnt Cnt.HL_CNT_DRILL_CAP_TIMEOUT + 1 ∧
      Headland.regsBut h h' [Reg.HL_DRILL_CAP_CTL n] [Cnt.HL_CNT_DRILL_CAP_TIMEOUT] ∧
      h' = { h with regs := h'.regs, cnts := h'.cnts, pins := { h.pins with capEnd := h'.pins.capEnd } }

/-! ### Run, Stop and the budget -/

/-- IDLE_TIMER_EXPIRY sets IDLE_EXPIRED in Service and starts an automatic entry where its conditions hold.
STOP_REQUEST starts a forced entry in Service with PERMIT, which clears CH_WAKE_SRC, and otherwise writes CH_PWR_CTL
alone. STOP_ENTRY aborts at the first sub-block that refuses, and else holds the pads, stores the signature of every
group and stops the core clock. STOP_ABORT_DONE returns to RUN; STOP_ENTERED completes the entry. An entry begins and
goes on in Service alone (R58, R468, R471, R472, R474, R480, R484, R488). -/
def Obligations.StopEntered : Prop :=
  (∀ (s : State) (c : ChanId), s.ready c →
    ((s.view c).mode = ModeCode.service → (s.view c).phase = Phase.run →
      (((s.view c).setf Reg.CH_PWR_STATUS F.CH_PWR_STATUS_IDLE_EXPIRED 1).autoOk = false →
        completes (.idleTimerExpiry c) s c fun cx cx' =>
          cx'.flg Reg.CH_PWR_STATUS F.CH_PWR_STATUS_IDLE_EXPIRED = true ∧ cx'.phase = Phase.run ∧
          cx'.mode = ModeCode.service ∧ Cx.only cx cx' [Reg.CH_PWR_STATUS] []) ∧
      (((s.view c).setf Reg.CH_PWR_STATUS F.CH_PWR_STATUS_IDLE_EXPIRED 1).autoOk = true → (s.view c).hoSource = false →
        completes (.idleTimerExpiry c) s c fun cx cx' =>
          cx'.phase = Phase.entering ∧ cx'.ch.pwr.watch = cx.flg Reg.CH_PWR_CTL F.CH_PWR_CTL_AUTO_VAR ∧
          cx'.ch.pwr.forced = false ∧ cx'.get Reg.CH_WAKE_SRC = 0 ∧
          Cx.regsBut cx cx' [Reg.CH_PWR_STATUS, Reg.CH_WAKE_SRC, Reg.CH_SEAL_FAIL_LO, Reg.CH_SEAL_FAIL_HI] [])) ∧
    ((s.view c).mode ≠ ModeCode.service → completes (.idleTimerExpiry c) s c fun cx cx' => cx' = cx)) ∧
  (∀ (s : State) (c : ChanId) (v : Word), s.listens → s.hl.resetRuns c = false → (s.view c).mode ≠ ModeCode.halted →
    getB v F.CH_PWR_CTL_WAKE = false →
    ((s.view c).mayForce = true → completes (.stopRequest c v) s c fun cx cx' =>
      cx'.phase = Phase.entering ∧ cx'.ch.pwr =
        { cx.ch.pwr with watch := getB v F.CH_PWR_CTL_AUTO_VAR, forced := true, asked := cx.shortTime } ∧
      cx'.get Reg.CH_WAKE_SRC = 0 ∧ cx'.mode = ModeCode.service ∧
      Cx.regsBut cx cx' [Reg.CH_PWR_CTL, Reg.CH_PWR_STATUS, Reg.CH_WAKE_SRC, Reg.CH_SEAL_FAIL_LO, Reg.CH_SEAL_FAIL_HI] [] ∧
      cx' = { cx with ch := { cx.ch with regs := cx'.ch.regs, pwr := cx'.ch.pwr } }) ∧
    ((s.view c).mayForce = false → completes (.stopRequest c v) s c fun cx cx' =>
      Cx.only cx cx' [Reg.CH_PWR_CTL] [] ∧
      cx'.fld Reg.CH_PWR_CTL F.CH_PWR_CTL_AUTO_EN = getF v F.CH_PWR_CTL_AUTO_EN ∧
      cx'.fld Reg.CH_PWR_CTL F.CH_PWR_CTL_AUTO_VAR = getF v F.CH_PWR_CTL_AUTO_VAR)) ∧
  (∀ (s : State) (c : ChanId), s.ready c → (s.view c).phase = Phase.entering → s.chans[c].coreStopped = false →
    ((s.view c).mode ≠ ModeCode.service → completes (.stopEntry c) s c fun cx cx' => cx' = cx) ∧
    (∀ id, (s.view c).mode = ModeCode.service → (s.view c).refuser = some id →
      (id = 5 → s.chans[c].ds.cipherQ = []) → completes (.stopEntry c) s c fun cx cx' =>
      cx'.phase = (if id = 5 then Phase.run else Phase.aborting) ∧ cx'.mode = cx.mode ∧
      cx'.get Reg.CH_STOP_REFUSER = BitVec.ofNat 32 (id + 2 ^ 31) ∧
      cx'.ch.cnt Cnt.CH_STOP_REFUSED = cx.ch.cnt Cnt.CH_STOP_REFUSED + 1 ∧
      cx'.ch.cnt (Cnt.CH_CNT_STOP_REF id) = cx.ch.cnt (Cnt.CH_CNT_STOP_REF id) + 1 ∧
      Cx.onlyEv cx cx' [Reg.CH_STOP_REFUSER, Reg.CH_PWR_STATUS] [Cnt.CH_STOP_REFUSED, Cnt.CH_CNT_STOP_REF id]) ∧
    ((s.view c).mode = ModeCode.service → (s.view c).refuser = none → completes (.stopEntry c) s c fun cx cx' =>
      cx'.ch.coreStopped = true ∧ cx'.flg Reg.CH_PWR_STATUS F.CH_PWR_STATUS_PAD_HELD = true ∧ cx'.ch.us.txEn = false ∧
      cx'.ch.pwr.seals = (List.range 50).map (cx.signature cx.hl.stu.tick) ∧
      cx'.ch.pwr.lane = some cx.ch.laneOut ∧ cx'.ch.pwr.since = cx.hl.stu.tick ∧ cx'.mode = cx.mode ∧
      cx'.phase = Phase.entering ∧
      Cx.regsBut cx cx' [Reg.CH_PWR_STATUS, Reg.CH_TU_MSG_ARM] [Cnt.CH_CNT_TU_MSG_LOST] ∧
      cx'.hl = cx.hl ∧ Chan.sameMems cx.ch cx'.ch ∧ cx'.ch.stream = cx.ch.stream ∧ cx'.ch.rings = cx.ch.rings)) ∧
  (∀ (s : State) (c : ChanId), s.ready c → (s.view c).phase = Phase.aborting → s.chans[c].ds.cipherQ = [] →
    completes (.stopAbortDone c) s c fun cx cx' =>
      cx'.phase = Phase.run ∧ cx'.flg Reg.CH_PWR_STATUS F.CH_PWR_STATUS_IDLE_EXPIRED = false ∧ cx'.mode = cx.mode ∧
      Cx.only cx cx' [Reg.CH_PWR_STATUS] []) ∧
  ∀ (s : State) (c : ChanId), s.ready c → (s.view c).phase = Phase.entering → s.chans[c].coreStopped = true →
    (s.view c).mode = ModeCode.service → completes (.stopEntered c) s c fun cx cx' =>
      cx'.mode = ModeCode.stop ∧ cx'.fld Reg.CH_MODE F.CH_MODE_MODE = 0 ∧
      cx'.flg Reg.CH_PWR_STATUS F.CH_PWR_STATUS_VARIANT = cx.ch.pwr.watch ∧
      cx'.ch.cnt Cnt.CH_CNT_PWR_STOPS = cx.ch.cnt Cnt.CH_CNT_PWR_STOPS + 1 ∧
      (cx.fld Reg.CH_WAKE_SRC F.CH_WAKE_SRC_SRC = 0 → cx'.phase = Phase.stopped) ∧
      (cx.fld Reg.CH_WAKE_SRC F.CH_WAKE_SRC_SRC ≠ 0 → cx'.phase = Phase.waking ∧
        cx'.ch.cnt Cnt.CH_CNT_PWR_WAKE_IN_ENTRY = cx.ch.cnt Cnt.CH_CNT_PWR_WAKE_IN_ENTRY + 1)

/-- WAKE_REQUEST of the host or the firmware and STOP_TIMER_EXPIRY set their bit of CH_WAKE_SRC in Stop and start the
wake; during an entry the bit alone sets. WAKE_COMPLETE with no failed seal, whatever was corrected, returns the
channel to Service: after Stop-dark the guard starts in NOSYNC with nothing from the framer; the gates and arms held
are delivered; Drill entries armed over a Stop of 2^31 ns or more are missed and disarmed. The failed seal of a bank
in service halts it with cause 0x02. BROWN_OUT halts with cause 0x03 while the detector is armed; PAD_RELEASE releases
the pads in Acquire and Service (R300, R302, R457, R460, R475, R479, R480, R485, R489 to R491). -/
def Obligations.WakesAndBrownOut : Prop :=
  (∀ (s : State) (c : ChanId) (v : Word), s.listens → s.hl.resetRuns c = false → (s.view c).mode ≠ ModeCode.halted →
    getB v F.CH_PWR_CTL_STOP = false →
    ((s.view c).phase = Phase.stopped → completes (.wakeRequest c (.host v)) s c fun cx cx' =>
      cx'.phase = Phase.waking ∧ cx'.flg Reg.CH_WAKE_SRC ⟨Wk.host, 1⟩ = true ∧ cx'.mode = cx.mode ∧
      Cx.regsBut cx cx' [Reg.CH_PWR_CTL, Reg.CH_PWR_STATUS, Reg.CH_WAKE_SRC] [] ∧
      cx' = { cx with ch := { cx.ch with regs := cx'.ch.regs, pwr := { cx.ch.pwr with wakeAt := cx.hl.stu.tick } } }) ∧
    ((s.view c).phase = Phase.entering → completes (.wakeRequest c (.host v)) s c fun cx cx' =>
      cx'.phase = Phase.entering ∧ cx'.flg Reg.CH_WAKE_SRC ⟨Wk.host, 1⟩ = true ∧
      Cx.only cx cx' [Reg.CH_PWR_CTL, Reg.CH_WAKE_SRC] []) ∧
    ((s.view c).phase = Phase.run → completes (.wakeRequest c (.host v)) s c fun cx cx' =>
      Cx.only cx cx' [Reg.CH_PWR_CTL] [])) ∧
  (∀ (s : State) (c : ChanId), s.ready c → (s.view c).phase = Phase.stopped →
    (s.hl.fwUp = true → completes (.wakeRequest c .firmware) s c fun cx cx' =>
      cx'.phase = Phase.waking ∧ cx'.flg Reg.CH_WAKE_SRC ⟨Wk.firmware, 1⟩ = true ∧
      Cx.regsBut cx cx' [Reg.CH_PWR_STATUS, Reg.CH_WAKE_SRC] [] ∧
      cx' = { cx with ch := { cx.ch with regs := cx'.ch.regs, pwr := { cx.ch.pwr with wakeAt := cx.hl.stu.tick } } }) ∧
    ((s.view c).fld Reg.CH_STOP_TIMER F.CH_STOP_TIMER_MAX_MS ≠ 0 → completes (.stopTimerExpiry c) s c fun cx cx' =>
      cx'.phase = Phase.waking ∧ cx'.flg Reg.CH_WAKE_SRC ⟨Wk.timer, 1⟩ = true ∧
      Cx.regsBut cx cx' [Reg.CH_PWR_STATUS, Reg.CH_WAKE_SRC] [] ∧
      cx' = { cx with ch := { cx.ch with regs := cx'.ch.regs, pwr := { cx.ch.pwr with wakeAt := cx.hl.stu.tick } } }) ∧
    ((s.view c).fld Reg.CH_STOP_TIMER F.CH_STOP_TIMER_MAX_MS = 0 → completes (.stopTimerExpiry c) s c fun cx cx' =>
      cx' = cx)) ∧
  (∀ (s : State) (c : ChanId) (flips : List SealFlip) (ues ces : List (Fin 50)), s.ready c → s.hl.ho = none →
    (s.view c).phase = Phase.waking →
    (s.chans[c].rings.stopLines = [] → s.chans[c].ds.entry = [] → s.chans[c].act.to2 = false →
      (flips.foldl Cx.flip (s.view c)).sealFailures flips (ues.map Fin.val) = [] →
      completes (.wakeComplete c flips ⟨ues, ces⟩) s c fun cx cx' =>
        cx'.mode = ModeCode.service ∧ cx'.phase = Phase.run ∧ cx'.ch.coreStopped = false ∧
        cx'.flg Reg.CH_PWR_STATUS F.CH_PWR_STATUS_REG_LP = false ∧
        cx'.flg Reg.CH_PWR_STATUS F.CH_PWR_STATUS_PAD_HELD = cx.flg Reg.CH_PWR_STATUS F.CH_PWR_STATUS_PAD_HELD ∧
        cx'.ch.cnt Cnt.CH_CNT_PWR_WAKES = cx.ch.cnt Cnt.CH_CNT_PWR_WAKES + 1 ∧
        cx'.ch.armHeld = [] ∧ cx'.ch.pwr.gates = [] ∧
        (cx.ch.pwr.watch = false → cx'.guard = Guard.nosync ∧ cx'.ch.ds.cur = none ∧ cx'.ch.ds.prevSfc = none ∧
          cx'.flg Reg.CH_DS_STATUS F.CH_DS_STATUS_FRAMER_SYNC = false) ∧
        (cx.ch.pwr.watch = true → cx'.guard = cx.guard) ∧
        (∀ q < 256, ∀ closed, flips = [] → cx.ch.drill = [] → cx.ch.pwr.gates = [(q, closed)] →
          cx'.gateOpen q = !closed) ∧
        (∀ g t, g < 4 → flips = [] → cx.ch.armHeld = [(g, t)] → cx.slotState g = SlotState.build → cx.armValid = false →
          cx'.ch.checks = cx.ch.checks ++ [(g, some (t, cx.reached t.toNat))]) ∧
        (2 ^ 31 ≤ (cx.hl.stu.tick - cx.ch.pwr.since).toNat →
          ∀ n < 64, (cx'.drillAt n).en = false ∧
            ((cx.drillAt n).en = true → (cx'.drillAt n).result = DrResult.missed ∧ n ∉ cx'.ch.drillQ))) ∧
    ∀ g : Fin 50, 26 ≤ g.val → g.val < 32 → (s.view c).mode = ModeCode.stop →
      (flips.foldl Cx.flip (s.view c)).sealFailures flips (ues.map Fin.val) = [g.val] →
      completes (.wakeComplete c flips ⟨ues, ces⟩) s c fun cx cx' =>
        cx'.mode = ModeCode.halted ∧ cx'.fld Reg.CH_HALT_CAUSE F.CH_HALT_CAUSE_CAUSE = Halt.retentionLost ∧
        cx'.fld Reg.CH_HALT_CAUSE F.CH_HALT_CAUSE_DETAIL = g.val ∧
        cx'.flg Reg.CH_SEAL_FAIL_LO ⟨g.val, 1⟩ = true ∧
        cx'.ch.cnt Cnt.CH_CNT_PWR_SEAL_FAIL = cx.ch.cnt Cnt.CH_CNT_PWR_SEAL_FAIL + 1) ∧
  (∀ (s : State) (c : ChanId), s.ready c →
    ((s.view c).brownOutArmed = true → (s.view c).mode = ModeCode.stop → completes (.brownOut c) s c fun cx cx' =>
      cx'.mode = ModeCode.halted ∧ cx'.fld Reg.CH_HALT_CAUSE F.CH_HALT_CAUSE_CAUSE = Halt.brownOut ∧
      cx'.flg Reg.CH_PWR_STATUS F.CH_PWR_STATUS_BROWN_OUT = true ∧ cx'.ch.pwr.seals = [] ∧
      cx'.ch.coreStopped = false ∧ cx'.ch.us.txEn = false) ∧
    ((s.view c).brownOutArmed = false → completes (.brownOut c) s c fun cx cx' => cx' = cx)) ∧
  ∀ (s : State) (c : ChanId), s.listens → s.hl.resetRuns c = false →
    (((s.view c).mode = ModeCode.acquire ∨ (s.view c).mode = ModeCode.service) → (s.view c).phase = Phase.run →
      completes (.padRelease c) s c fun cx cx' =>
        cx'.flg Reg.CH_PWR_STATUS F.CH_PWR_STATUS_PAD_HELD = false ∧ cx'.mode = cx.mode ∧ cx'.phase = cx.phase ∧
        Cx.regsBut cx cx' [Reg.CH_PWR_STATUS] [] ∧
        cx' = { cx with ch := { cx.ch with regs := cx'.ch.regs, pwr := { cx.ch.pwr with lane := none } } }) ∧
    ((s.view c).mode = ModeCode.halted → completes (.padRelease c) s c fun cx cx' => cx' = cx)

/-- DVFS_FREQ_REQUEST and DVFS_VOLT_REQUEST start the change unless R494 rejects it; DVFS_FREQ_DONE and DVFS_VOLT_DONE
put the new index in place. BUDGET_WRITE takes a budget that covers the floors and no other. BUDGET_ARBITRATE grants
each channel at least its floor, and no more in all than the budget, or the floors where they exceed it (R493 to
R498). -/
def Obligations.OperatingPointsAndBudget : Prop :=
  (∀ (s : State) (mg : Bool) (i : Fin 4), s.listens →
    (s.dvfsReject mg false i = 0 → s.hl.fld Reg.HL_DVFS_STATUS (dvfsF mg) ≠ i.val →
      completesHl (.dvfsFreqRequest mg i) s fun h h' =>
        h'.dvfs = some ⟨mg, false, i⟩ ∧ h'.flg Reg.HL_DVFS_STATUS F.HL_DVFS_STATUS_BUSY = true ∧
        h'.fld Reg.HL_DVFS_STATUS (dvfsF mg) = h.fld Reg.HL_DVFS_STATUS (dvfsF mg) ∧
        Headland.regsBut h h' [Reg.HL_DVFS_STATUS] [] ∧ h' = { h with regs := h'.regs, dvfs := h'.dvfs }) ∧
    (s.hl.fld Reg.HL_DVFS_STATUS (dvfsV mg) < i.val → s.hl.deferred = [] → completesHl (.dvfsFreqRequest mg i) s fun h h' =>
      h'.fld Reg.HL_DVFS_STATUS F.HL_DVFS_STATUS_LAST_REJECT = 1 ∧ h'.dvfs = h.dvfs ∧
      h'.cnt Cnt.HL_CNT_DVFS_REJECT = h.cnt Cnt.HL_CNT_DVFS_REJECT + 1) ∧
    (s.dvfsReject mg true i = 0 → s.hl.fld Reg.HL_DVFS_STATUS (dvfsV mg) ≠ i.val →
      completesHl (.dvfsVoltRequest mg i) s fun h h' =>
        h'.dvfs = some ⟨mg, true, i⟩ ∧ h'.flg Reg.HL_DVFS_STATUS F.HL_DVFS_STATUS_BUSY = true ∧
        Headland.regsBut h h' [Reg.HL_DVFS_STATUS] [] ∧ h' = { h with regs := h'.regs, dvfs := h'.dvfs }) ∧
    (i.val < s.hl.fld Reg.HL_DVFS_STATUS (dvfsF mg) → s.hl.deferred = [] → completesHl (.dvfsVoltRequest mg i) s fun h h' =>
      h'.fld Reg.HL_DVFS_STATUS F.HL_DVFS_STATUS_LAST_REJECT = 2 ∧ h'.dvfs = h.dvfs ∧
      h'.cnt Cnt.HL_CNT_DVFS_REJECT = h.cnt Cnt.HL_CNT_DVFS_REJECT + 1)) ∧
  (∀ (s : State) (d : Dvfs), s.up → s.hl.dvfs = some d → d.index < 4 →
    (d.volt = false → completesHl .dvfsFreqDone s fun h h' =>
      h'.fld Reg.HL_DVFS_STATUS (dvfsF d.mg) = d.index ∧ h'.flg Reg.HL_DVFS_STATUS F.HL_DVFS_STATUS_BUSY = false ∧
      h'.dvfs = none ∧ h'.cnt Cnt.HL_CNT_DVFS_DONE = h.cnt Cnt.HL_CNT_DVFS_DONE + 1 ∧
      Headland.regsBut h h' [Reg.HL_DVFS_STATUS] [Cnt.HL_CNT_DVFS_DONE]) ∧
    (d.volt = true → completesHl .dvfsVoltDone s fun h h' =>
      h'.fld Reg.HL_DVFS_STATUS (dvfsV d.mg) = d.index ∧ h'.flg Reg.HL_DVFS_STATUS F.HL_DVFS_STATUS_BUSY = false ∧
      h'.dvfs = none ∧ h'.cnt Cnt.HL_CNT_DVFS_DONE = h.cnt Cnt.HL_CNT_DVFS_DONE + 1 ∧
      Headland.regsBut h h' [Reg.HL_DVFS_STATUS] [Cnt.HL_CNT_DVFS_DONE])) ∧
  (∀ (s : State) (v : Word), s.listens →
    (s.floors ≤ getF v F.HL_PWR_BUDGET_TOKENS → completesHl (.budgetWrite v) s fun h h' =>
      h'.fld Reg.HL_PWR_BUDGET F.HL_PWR_BUDGET_TOKENS = getF v F.HL_PWR_BUDGET_TOKENS ∧
      Headland.only h h' [Reg.HL_PWR_BUDGET] []) ∧
    (getF v F.HL_PWR_BUDGET_TOKENS < s.floors → completesHl (.budgetWrite v) s fun h h' => Headland.evented h h')) ∧
  ∀ s : State, s.up → s.hl.deferred = [] →
    completesHl .budgetArbitrate s fun h h' =>
      h'.fld Reg.HL_PWR_STATUS F.HL_PWR_STATUS_FLOORS = s.floors ∧
      (∀ c : ChanId, s.chans[c].floor ≤ (h'.get (Reg.HL_PWR_GRANT c)).toNat) ∧
      h'.fld Reg.HL_PWR_STATUS F.HL_PWR_STATUS_GRANTED ≤ max h.budget s.floors ∧
      h'.flg Reg.HL_PWR_STATUS F.HL_PWR_STATUS_OVER = decide (h.budget < s.floors) ∧
      (∀ o, o ≠ Reg.HL_PWR_STATUS → (∀ n < 20, o ≠ Reg.HL_PWR_GRANT n) → (∀ n < 512, o ≠ Reg.HL_EVSRC n) →
        o ≠ Reg.HL_VEC_PEND_LO → o ≠ Reg.HL_VEC_PEND_HI → h'.get o = h.get o)

/-! ### The bulk mover and the indirect windows -/

/-- MOVER_GO submits a shadow that no check of R503 fails, and otherwise records why not. MOVER_START runs a pending
transfer: one chunk from host memory to the firmware image is written whole and leaves the set finishing; with 8
chunks outstanding no further one is issued; MOVER_DONE completes it. MOVER_RETRY repeats a chunk after a non-fatal
failure while retries are left and otherwise halts the set. A posted host write counts its bytes when it is answered,
is repeated after a non-fatal code while retries are left, and a fatal code halts its set, be it idle. MOVER_CLEAR and
MOVER_ABORT act on a halted and on a running set (R502 to R504, R509, R515, R517 to R520, R522, R590). -/
def Obligations.MoverSetsRun : Prop :=
  (∀ (s : State) (n : Fin 8) (v : Word), s.listens →
    (s.hl.mvPending n = true → completesHl (.moverGo n v) s fun h h' =>
      h'.fld (Reg.MV_STATUS n) F.MV_STATUS_REFUSE = 1 ∧ h'.mvPending n = true ∧
      Headland.only h h' [Reg.MV_STATUS n] []) ∧
    (s.hl.mvPending n = false → completesHl (.moverGo n v) s fun h h' =>
      h'.get (Reg.MV_CTL n) = v &&& 0x7E ∧
      h'.fld (Reg.MV_STATUS n) F.MV_STATUS_REFUSE = (h.put (Reg.MV_CTL n) (v &&& 0x7E)).mvCheck n ∧
      h'.mvPending n = decide ((h.put (Reg.MV_CTL n) (v &&& 0x7E)).mvCheck n = 0) ∧ h'.mvState n = h.mvState n ∧
      Headland.only h h' [Reg.MV_STATUS n, Reg.MV_CTL n] [])) ∧
  (∀ (s : State) (n : Fin 8) (good : Nat) (host : List Byte) (ecc : EccFault) (src dst k : Nat), s.up →
    s.hl.mvState n = MvState.idle → s.hl.mvPending n = true → s.hl.mvLent n = false → 1 ≤ good → (s.hl.mv n).full = false →
    src = mvDword s.hl (Reg.MV_SRC_LO n) (Reg.MV_SRC_HI n) → dst = mvDword s.hl (Reg.MV_DST_LO n) (Reg.MV_DST_HI n) →
    s.hl.fld (Reg.MV_SPACE n) F.MV_SPACE_SRC_SPACE = Space.host →
    s.hl.fld (Reg.MV_SPACE n) F.MV_SPACE_DST_SPACE = Space.fwImage → s.hl.fw.locked = false →
    (s.hl.get (Reg.MV_COUNT n)).toNat = k → 0 < k → src % 256 + k ≤ 256 → dst % 256 + k ≤ 256 → host.length = k →
    completesHl (.moverStart n good host ecc) s fun h h' =>
      h'.mvState n = MvState.finishing ∧ h'.mvPending n = false ∧ h'.get (Reg.MV_REMAIN n) = 0 ∧
      Sparse.bytes h'.fwImage dst k = host ∧
      (∀ a, a < dst ∨ dst + k ≤ a → Sparse.get zeroByte h'.fwImage a = Sparse.get zeroByte h.fwImage a) ∧
      h'.cnt Cnt.HL_CNT_MV_BYTES = h.cnt Cnt.HL_CNT_MV_BYTES + BitVec.ofNat 64 k ∧
      Headland.regsBut h h' [Reg.MV_STATUS n, Reg.MV_RESULT n, Reg.MV_REMAIN n, Reg.MV_DISCARDS n] [Cnt.HL_CNT_MV_BYTES] ∧
      (∀ j, j ≠ n.val → h'.mv j = h.mv j) ∧ (h'.mv n).readBack = getB (h.get (Reg.MV_CTL n)) F.MV_CTL_BARRIER ∧
      h' = { h with regs := h'.regs, cnts := h'.cnts, movers := h'.movers, fwImage := h'.fwImage }) ∧
  (∀ (s : State) (n : Fin 8) (good : Nat) (host : List Byte) (ecc : EccFault), s.up →
    s.hl.mvState n = MvState.running → s.hl.mvLent n = false → (s.hl.mv n).full = true → (s.hl.mv n).done < (s.hl.mv n).len →
    completesHl (.moverRetry n 0 false good host ecc) s fun h h' =>
      h'.mv n = h.mv n ∧ h'.mvState n = MvState.running ∧ Headland.only h h' [Reg.MV_RESULT n] []) ∧
  (∀ (s : State) (n : Fin 8), s.up → s.hl.deferred = [] → s.hl.mvState n = MvState.finishing →
    ((s.hl.mv n).readBack = true → chanSpace ((s.hl.mv n).sp true) = false) → completesHl (.moverDone n) s fun h h' =>
      h'.mvState n = MvState.idle ∧
      (h'.mv n).out = (h.mv n).out ++
        (if getB (h.mv n).ctl F.MV_CTL_RESULT_WR then [⟨(h.mv n).res, h.mvRecord n, none, true, 0⟩] else []) ∧
      h'.cnt Cnt.HL_CNT_MV_DONE = h.cnt Cnt.HL_CNT_MV_DONE + 1 ∧ h'.fwImage = h.fwImage ∧
      h.raised h' (Ev.moverDone + n) ∧
      (∀ o, o ≠ Reg.MV_STATUS n → (∀ k < 512, o ≠ Reg.HL_EVSRC k) → o ≠ Reg.HL_VEC_PEND_LO → o ≠ Reg.HL_VEC_PEND_HI →
        h'.get o = h.get o)) ∧
  (∀ (s : State) (n : Fin 8) (code : Byte) (host : List Byte) (ecc : EccFault), s.up → s.hl.deferred = [] →
    s.hl.mvLent n = false → s.hl.mvState n = MvState.running → (s.hl.mv n).sp false = Space.host →
    (s.hl.mv n).done < (s.hl.mv n).len → 0 < code.toNat → code.toNat < 0x80 →
    ((s.hl.mv n).tries < s.hl.fld (Reg.MV_CFG n) F.MV_CFG_RETRY →
      completesHl (.moverRetry n code false 0 host ecc) s fun h h' =>
        h'.mvState n = MvState.running ∧ h'.mv n = { h.mv n with tries := (h.mv n).tries + 1 } ∧
        h'.fld (Reg.MV_STATUS n) F.MV_STATUS_RETRIES = (h.mv n).tries + 1 ∧
        h'.cnt Cnt.HL_CNT_MV_RETRY = h.cnt Cnt.HL_CNT_MV_RETRY + 1 ∧
        h'.cnt Cnt.HL_CNT_HP_RETRY = h.cnt Cnt.HL_CNT_HP_RETRY + 1) ∧
    (s.hl.fld (Reg.MV_CFG n) F.MV_CFG_RETRY ≤ (s.hl.mv n).tries → (∀ w ∈ (s.hl.mv n).out, w.off = none) →
      completesHl (.moverRetry n code false 0 host ecc) s fun h h' =>
        h'.mvState n = MvState.halted ∧ h'.fld (Reg.MV_STATUS n) F.MV_STATUS_HALT_CODE = MvHalt.busErr ∧
        h'.get (Reg.MV_REMAIN n) = BitVec.ofNat 32 ((h.mv n).len - (h.mv n).done) ∧
        h'.cnt Cnt.HL_CNT_MV_HALT = h.cnt Cnt.HL_CNT_MV_HALT + 1 ∧ h'.fwImage = h.fwImage)) ∧
  (∀ (s : State) (n : Fin 8) (w : MvWrite) (l : List MvWrite), s.up → s.hl.deferred = [] → (s.hl.mv n).out = w :: l →
    w.record = false →
    (w.off = none → completesHl (.hostWriteResponse (.mover n) 0) s fun h h' =>
      (h'.mv n).out = l ∧
      h'.cnt Cnt.HL_CNT_MV_BYTES = h.cnt Cnt.HL_CNT_MV_BYTES + BitVec.ofNat 64 w.bytes.length ∧
      Headland.regsBut h h' [Reg.MV_STATUS n] [Cnt.HL_CNT_MV_BYTES] ∧ h'.mvState n = h.mvState n) ∧
    ∀ code : Byte, 0 < code.toNat → s.hl.mvState n ≠ MvState.halted →
      (code.toNat < 0x80 → w.tries < s.hl.fld (Reg.MV_CFG n) F.MV_CFG_RETRY →
        completesHl (.hostWriteResponse (.mover n) code) s fun h h' =>
          (h'.mv n).out = { w with tries := w.tries + 1 } :: l ∧ h'.mvState n = h.mvState n ∧
          h'.cnt Cnt.HL_CNT_MV_RETRY = h.cnt Cnt.HL_CNT_MV_RETRY + 1 ∧
          h'.cnt Cnt.HL_CNT_HP_RETRY = h.cnt Cnt.HL_CNT_HP_RETRY + 1 ∧
          h'.cnt Cnt.HL_CNT_MV_BYTES = h.cnt Cnt.HL_CNT_MV_BYTES) ∧
      (0x80 ≤ code.toNat → completesHl (.hostWriteResponse (.mover n) code) s fun h h' =>
        h'.mvState n = MvState.halted ∧ h'.fld (Reg.MV_STATUS n) F.MV_STATUS_HALT_CODE = MvHalt.hostFatal ∧
        (h'.mv n).out.length = l.length ∧ h'.cnt Cnt.HL_CNT_HP_FATAL = h.cnt Cnt.HL_CNT_HP_FATAL + 1 ∧
        h'.cnt Cnt.HL_CNT_MV_HALT = h.cnt Cnt.HL_CNT_MV_HALT + 1 ∧
        h'.cnt Cnt.HL_CNT_MV_BYTES = h.cnt Cnt.HL_CNT_MV_BYTES)) ∧
  ∀ (s : State) (n : Fin 8), s.listens → s.hl.mvLent n = false →
    (s.hl.mvState n = MvState.halted → completesHl (.moverClear n) s fun h h' =>
      h'.mvState n = MvState.idle ∧ h'.fld (Reg.MV_STATUS n) F.MV_STATUS_HALT_CODE = 0 ∧
      h'.mvPending n = h.mvPending n ∧ Headland.only h h' [Reg.MV_STATUS n] []) ∧
    (s.hl.mvState n ≠ MvState.halted → completesHl (.moverClear n) s fun h h' => h' = h) ∧
    (s.hl.mvState n = MvState.running → s.hl.deferred = [] → completesHl (.moverAbort n) s fun h h' =>
      h'.mvState n = MvState.halted ∧ h'.fld (Reg.MV_STATUS n) F.MV_STATUS_HALT_CODE = MvHalt.aborted ∧
      h'.mvPending n = false ∧ h'.cnt Cnt.HL_CNT_MV_HALT = h.cnt Cnt.HL_CNT_MV_HALT + 1) ∧
    (s.hl.mvState n = MvState.idle → completesHl (.moverAbort n) s fun h h' =>
      h'.mvPending n = false ∧ h'.mvState n = MvState.idle ∧ Headland.only h h' [Reg.MV_STATUS n] []) ∧
    (s.hl.mvState n = MvState.finishing → completesHl (.moverAbort n) s fun h h' => h' = h)

/-- WINDOW_SELECT_WRITE completes: it names a channel and a block and drops the aperture's latch. WINDOW_ACCESS
completes: it reads and writes the named bytes of the channel's memory: a 64-bit read answers its word, a 64-bit write
to a flow context in Disabled stores all of it; a read that meets an uncorrectable error in a tree node halts the
channel, answers all ones with an error response and is recorded; an absent channel answers zero, stores nothing and
is recorded (R254, R641 to R644). -/
def Obligations.WindowsReachMemory : Prop :=
  (∀ (s : State) (tree : Bool) (v : Word), s.listens → completesHl (.windowSelectWrite tree v) s fun h h' =>
    h'.get (iwSel tree) = v &&& 0x1F1F ∧ (∀ o < 0x10000, h'.iwLatched tree o = none) ∧
    (∀ o < 0x10000, h'.iwLatched (!tree) o = h.iwLatched (!tree) o) ∧ Headland.regsBut h h' [iwSel tree] [] ∧
    h' = { h with regs := h'.regs, latch := h'.latch }) ∧
  (∀ (s : State) (c : ChanId) (tree : Bool) (b : Nat), s.listens → s.chans[c].coreStopped = false →
    s.hl.tested c = false → s.hl.fld (iwSel tree) F.HL_IW_TREE_SEL_CHAN = c.val →
    s.hl.fld (iwSel tree) F.HL_IW_TREE_SEL_BASE = b → b ≤ (if tree then 31 else 23) → s.chans[c].badRows = [] →
    (∀ i : Fin 8192, completes (.windowAccess tree (.read64 i) .none) s c fun cx cx' =>
      cx'.hl.pins.rsp = some (BitVec.ofNat 64 (leNat (cx.spaceBytes (if tree then Space.tree else Space.context)
        (b * 0x10000 + 8 * i.val) 8)), false) ∧
      cx'.ch = cx.ch ∧ cx'.hl = { cx.hl with latch := cx'.hl.latch, pins := { cx.hl.pins with rsp := cx'.hl.pins.rsp } }) ∧
    (∀ (i : Fin 8192) (n : Fin 0x10000), tree = true → n.val = (b * 0x10000 + 8 * i.val) / 32 →
      s.hl.resetRuns c = false → (s.view c).mode = ModeCode.service → completes (.windowAccess tree (.read64 i) (.treeUe n)) s c fun cx cx' =>
        cx'.hl.pins.rsp = some (BitVec.ofNat 64 (2 ^ 64 - 1), true) ∧ cx'.mode = ModeCode.halted ∧
        cx'.hl.flg Reg.HL_IW_STATUS F.HL_IW_STATUS_DISCARD = true ∧
        cx'.hl.fld Reg.HL_IW_STATUS F.HL_IW_STATUS_REASON = IwReason.ecc ∧
        cx'.hl.cnt Cnt.HL_CNT_IW_DISCARD = cx.hl.cnt Cnt.HL_CNT_IW_DISCARD + 1 ∧ cx'.ch.tree = cx.ch.tree) ∧
    ∀ (i : Fin 8192) (v : DWord), tree = false → b < 16 → s.hl.resetRuns c = false → s.chans[c].mode = ModeCode.disabled →
      completes (.windowAccess tree (.write64 i v) .none) s c fun cx cx' =>
        Sparse.bytes cx'.ch.ctxm (b * 0x10000 + 8 * i.val) 8 = leBytes 8 v.toNat ∧
        (∀ a, a < b * 0x10000 + 8 * i.val ∨ b * 0x10000 + 8 * i.val + 8 ≤ a →
          Sparse.get zeroByte cx'.ch.ctxm a = Sparse.get zeroByte cx.ch.ctxm a) ∧
        cx'.ch.tree = cx.ch.tree ∧ cx'.ch.buf = cx.ch.buf ∧ cx'.ch.stg = cx.ch.stg ∧ cx'.mode = cx.mode) ∧
  ∀ (s : State) (tree : Bool), s.listens → 17 ≤ s.hl.fld (iwSel tree) F.HL_IW_TREE_SEL_CHAN →
    (∀ i : Fin 8192, completesHl (.windowAccess tree (.read64 i) .none) s fun h h' =>
      h'.pins.rsp = some (0, false) ∧ h'.flg Reg.HL_IW_STATUS F.HL_IW_STATUS_DISCARD = true ∧
      h'.fld Reg.HL_IW_STATUS F.HL_IW_STATUS_REASON = IwReason.absent ∧
      h'.cnt Cnt.HL_CNT_IW_DISCARD = h.cnt Cnt.HL_CNT_IW_DISCARD + 1 ∧
      Headland.regsBut h h' [Reg.HL_IW_STATUS] [Cnt.HL_CNT_IW_DISCARD]) ∧
    ∀ (i : Fin 16384) (w : Word), completesHl (.windowAccess tree (.write32 i w) .none) s fun h h' =>
      h'.pins = h.pins ∧ h'.fld Reg.HL_IW_STATUS F.HL_IW_STATUS_REASON = IwReason.absent ∧
      h'.fld Reg.HL_IW_STATUS F.HL_IW_STATUS_OFFSET = 4 * i.val ∧
      Headland.regsBut h h' [Reg.HL_IW_STATUS] [Cnt.HL_CNT_IW_DISCARD]

/-! ### Handover and fallow capacity -/

/-- HANDOVER of a running source to the designated, tested target begins PREPARE, in which the target is in Handover
as its target, and the fallow manager's sets run; HANDOVER_PREPARE_DONE gives the target, from the image it leaves in
the host buffer, the source's configuration and tree memory; a host image of a VERSION that the firmware does not
accept, or the second halt of a set, aborts; HANDOVER_ABORT before the end of SWITCH returns the target to Disabled
and leaves a source that was not frozen as it was (R532 to R534, R536, R539, R540, R547). -/
def Obligations.HandoverPrepares : Prop :=
  (∀ (s : State) (m : CmdHead) (src tgt : Fin 32) (buffer : DWord) (hostCfg : Bool) (hs : src.val < 17)
    (ht : tgt.val < 17), s.serving m 0x0201 →
    s.hl.deferred = [] → s.hl.fmBusy = false → src ≠ tgt → (s.view ⟨src, hs⟩).mode = ModeCode.service →
    (s.view ⟨src, hs⟩).phase = Phase.run →
    s.hl.fallowValid = true → s.hl.fallowCh = tgt.val → (s.view ⟨tgt, ht⟩).mode = ModeCode.disabled →
    s.hl.flg Reg.HL_FM_STATUS F.HL_FM_STATUS_TESTED = true → buffer.toNat % 4096 = 0 →
    ∃ t, exec (.handover m src tgt buffer hostCfg) s = .next t ∧ t.pending = s.pending ∧
      (t.view ⟨tgt, ht⟩).mode = ModeCode.handover ∧ (t.view ⟨tgt, ht⟩).hoRole = 2 ∧
      (∀ d : ChanId, d.val ≠ tgt.val → t.chans[d] = s.chans[d]) ∧
      t.hl.hoPhase = HoPhase.prepare ∧ t.hl.flg Reg.HL_FM_STATUS F.HL_FM_STATUS_HO_BUSY = true ∧
      t.hl.ho = some ⟨src, tgt, buffer, hostCfg, false, 0, 0, 0, 0, 0, none, none, [], 0, false, none⟩ ∧
      t.hl.mvState 6 = MvState.running ∧ t.hl.mvState 7 = MvState.running ∧
      t.hl.get Reg.HL_MB_CMD_HEAD = s.hl.get Reg.HL_MB_CMD_HEAD + 1) ∧
  (∀ (s : State) (ho : Ho) (c d : ChanId) (halts : Nat) (version : BitVec 16) (cfg : List (BitVec 16 × Word)),
    s.up → s.hl.deferred = [] → s.hl.ho = some ho → ho.waking = false → s.hl.hoPhase = HoPhase.prepare →
    ho.src = c.val → ho.tgt = d.val → c ≠ d → (s.view d).mode = ModeCode.handover → s.hl.wedgedBit c = false →
    (ho.halts + halts < 2 → ho.hostCfg = false → completes (.handoverPrepareDone halts version cfg) s d fun cx cx' =>
      cx'.ch.tree = s.chans[c].tree ∧
      (∀ off, off ≠ Reg.CH_LANE → cx'.get off = (cx.get off &&& ~~~chRw off) ||| (s.chans[c].get off &&& chRw off)) ∧
      cx'.get Reg.CH_LANE = cx.get Reg.CH_LANE ∧
      cx'.ch = { cx.ch with regs := cx'.ch.regs, tree := cx'.ch.tree } ∧
      cx'.hl.hoPhase = HoPhase.freeze ∧
      cx'.hl.cnt Cnt.HL_CNT_MV_HALT = cx.hl.cnt Cnt.HL_CNT_MV_HALT + BitVec.ofNat 64 halts ∧
      cx'.hl.ho = some { ho with
        halts := ho.halts + halts, image := some (s.chans[c].exportConfig cx.ch none false)
        written := ho.written ++ (s.chans[c].exportConfig cx.ch none false).prepared ho }) ∧
    (2 ≤ ho.halts + halts ∧ 0 < halts ∨ ho.halts + halts < 2 ∧ ho.hostCfg = true ∧ s.hl.versionOk version.toNat = false →
      (s.view c).mode = ModeCode.service → s.chans[c].armHeld = [] → s.chans[c].pwr.gates = [] →
      completes (.handoverPrepareDone halts version cfg) s d fun cx cx' =>
        cx'.mode = ModeCode.disabled ∧ cx'.hl.ho = none ∧ cx'.hl.hoPhase = 0 ∧
        cx'.hl.fld Reg.HL_FM_HO F.HL_FM_HO_RESULT =
          (if 2 ≤ ho.halts + halts then HoResult.abortMover else HoResult.abortCheck) ∧
        Chan.sameMems cx.ch cx'.ch)) ∧
  ∀ (s : State) (ho : Ho) (m : CmdHead) (c d : ChanId), s.serving m 0x0202 → s.hl.deferred = [] → s.hl.ho = some ho → s.hl.hoPhase < HoPhase.resume → ho.src = c.val →
    ho.tgt = d.val → c ≠ d → (s.view c).mode = ModeCode.service → s.chans[c].armHeld = [] → s.chans[c].pwr.gates = [] →
    (s.view d).mode = ModeCode.handover →
    ∃ t, exec (.handoverAbort m) s = .next t ∧ t.pending = s.pending ∧
      (t.view d).mode = ModeCode.disabled ∧ (∀ e : ChanId, e ≠ d → t.chans[e] = s.chans[e]) ∧
      t.hl.ho = none ∧ t.hl.hoPhase = 0 ∧ t.hl.flg Reg.HL_FM_STATUS F.HL_FM_STATUS_HO_BUSY = false ∧
      t.hl.fld Reg.HL_FM_HO F.HL_FM_HO_RESULT = HoResult.abortHost ∧
      t.hl.cnt Cnt.HL_CNT_HO_ABORT = s.hl.cnt Cnt.HL_CNT_HO_ABORT + 1

/-- HANDOVER_FREEZE puts a live source into Handover with its pads latched. HANDOVER_TRANSFER gives the target the
source's registers, counters, buffers in use, rings and Drill, and leaves its image in the host buffer.
HANDOVER_SWITCH moves the lane and leaves the source in Disabled. HANDOVER_RESUME_DONE ends the handover once the
target has left Handover, with what RESUME came to (R538, R539, R541, R542, R545). -/
def Obligations.HandoverMovesTheChannel : Prop :=
  (∀ (s : State) (ho : Ho) (c d : ChanId), s.up → s.hl.deferred = [] → s.hl.ho = some ho → ho.waking = false →
    ho.src = c.val → ho.tgt = d.val → c ≠ d → s.hl.hoPhase = HoPhase.freeze → (s.view d).mode = ModeCode.handover →
    s.hl.wedgedBit c = false → (s.view c).mode = ModeCode.service → s.chans[c].us.bursts = [] →
    s.chans[c].rings.txq = [] → s.chans[c].stream.items = [] →
    completes (.handoverFreeze true) s c fun cx cx' =>
      cx'.mode = ModeCode.handover ∧ cx'.hoRole = 1 ∧ cx'.flg Reg.CH_PWR_STATUS F.CH_PWR_STATUS_PAD_HELD = true ∧
      cx'.ch.us.txEn = false ∧ cx'.hl.hoPhase = HoPhase.transfer ∧
      ∃ h, cx'.hl.ho = some h ∧ h.freeze = cx.hl.stu.tick ∧ h.mode = ModeCode.service ∧ h.kind = 0 ∧
        h.sfc = cx.dsSfc ∧ h.seed = (if cx.guard = Guard.accept then some cx.dsSfc else none)) ∧
  (∀ (s : State) (ho : Ho) (c d : ChanId) (halts : Nat), s.up → s.hl.deferred = [] → s.hl.ho = some ho →
    ho.waking = false → ho.kind = 0 → ho.hostCfg = false → ho.src = c.val → ho.tgt = d.val → c ≠ d → s.hl.hoPhase = HoPhase.transfer →
    (s.view d).mode = ModeCode.handover → s.chans[c].canonical = true →
    (s.chans[c].rings.txq.all fun e => e.2.storing.isNone) = true →
    s.chans[c].ds.cipherQ = [] → ho.halts + halts < 2 →
    completes (.handoverTransfer halts true) s d fun cx cx' =>
      (∀ off, ownReg off = false → off ≠ Reg.CH_GR_STATUS → off ≠ Reg.CH_GR_GLEAN →
        cx'.get off = s.chans[c].get off) ∧
      (∀ off, ownReg off = true → off ≠ Reg.CH_DS_STATUS → cx'.get off = cx.get off) ∧
      (∀ off, ownCnt off = false → cx'.ch.cnt off = s.chans[c].cnt off) ∧
      (∀ a, (s.view c).bufKept a = true → Sparse.get zeroByte cx'.ch.buf a = Sparse.get zeroByte s.chans[c].buf a) ∧
      cx'.ch.tree = s.chans[c].tree ∧ cx'.ch.rings.txq = s.chans[c].rings.txq ∧ cx'.ch.drill = s.chans[c].drill ∧
      cx'.mode = ModeCode.handover ∧ cx'.hl.hoPhase = HoPhase.switch_ ∧
      ∃ h, cx'.hl.ho = some h ∧ h.written = ho.written ++ (s.view c).fullSegs ho ((s.view c).exportFull ho.seed)) ∧
  (∀ (s : State) (ho : Ho) (c d : ChanId), s.up → s.hl.deferred = [] → s.hl.ho = some ho → ho.waking = false →
    ho.src = c.val → ho.tgt = d.val → c ≠ d → s.hl.hoPhase = HoPhase.switch_ → (s.view c).mode = ModeCode.handover →
    (s.view d).mode = ModeCode.handover →
    s.chans[c].armHeld = [] → s.chans[c].pwr.gates = [] → s.hl.fld Reg.HL_STU_CTL F.HL_STU_CTL_CHAN ≠ c.val →
    ∃ t, exec .handoverSwitch s = .next t ∧ t.pending = s.pending ∧
      t.chans[d].get Reg.CH_LANE = s.chans[c].get Reg.CH_LANE ∧ t.chans[c].get Reg.CH_LANE = 0 ∧
      t.chans[c].mode = ModeCode.disabled ∧ t.hl.hoPhase = HoPhase.resume ∧
      ∀ e : ChanId, e ≠ c → e ≠ d → t.chans[e] = s.chans[e]) ∧
  ∀ (s : State) (ho : Ho) (d : ChanId), s.up → s.hl.deferred = [] → s.hl.ho = some ho → ho.waking = false →
    ho.tgt = d.val → s.hl.hoPhase = HoPhase.resume →
    ((s.view d).mode ≠ ModeCode.handover → completesHl .handoverResumeDone s fun h h' =>
      h'.ho = none ∧ h'.fallowValid = false ∧ h'.hoPhase = 0 ∧
      h'.flg Reg.HL_FM_STATUS F.HL_FM_STATUS_HO_BUSY = false ∧
      h'.fld Reg.HL_FM_HO F.HL_FM_HO_RESULT = ho.result.getD HoResult.doneAcquire % 16 ∧
      h'.cnt Cnt.HL_CNT_HO_DONE = h.cnt Cnt.HL_CNT_HO_DONE + 1) ∧
    ((s.view d).mode = ModeCode.handover → completesHl .handoverResumeDone s fun h h' => h' = h)

/-- CONFIG_EXPORT writes an image whose header names the channel to the buffer and changes nothing else of the
channel. FALLOW_DESIGNATE makes a clean Disabled channel without identity the fallow channel, not tested; FALLOW_TEST
begins the test, and FALLOW_TEST_DONE leaves its memories zero, so that no context pins a slot and no fragment entry
is valid, and TESTED as the test came out (R246, R303, R531, R539, R550, R551). -/
def Obligations.FallowDesignatedAndTested : Prop :=
  (∀ (s : State) (m : CmdHead) (c : ChanId) (buffer : DWord), s.serves m 0x0203 c → s.hl.fmBusy = false →
    (s.view c).mode = ModeCode.disabled → buffer.toNat % 4096 = 0 → s.hl.stream.items = [] → s.hl.fatal = false →
    answered (.configExport m buffer) s m MbStatus.ok false c fun cx cx' =>
      cx'.ch = cx.ch ∧ cx'.hl = { cx.hl with stream := cx'.hl.stream } ∧
      ∃ hdr rest, cx'.hl.stream.items = .data .image buffer hdr :: rest ∧ hdr.length = 48 ∧
        hdr.take 8 = leBytes 4 0x4F485453 ++ leBytes 2 s.hl.runImage.regCur ++ [2, BitVec.ofNat 8 c.val]) ∧
  (∀ (s : State) (m : CmdHead) (c : ChanId), s.serves m 0x0204 c → s.hl.deferred = [] → s.hl.fallowValid = false →
    (s.view c).mode = ModeCode.disabled → (s.view c).recState = Rec.empty → s.chans[c].fm.clean = true →
    answered (.fallowDesignate m) s m MbStatus.ok true c fun cx cx' =>
      cx'.flg Reg.CH_MODE F.CH_MODE_FALLOW = true ∧ cx'.mode = ModeCode.disabled ∧ Cx.regsBut cx cx' [Reg.CH_MODE] [] ∧
      cx'.hl.fallowValid = true ∧ cx'.hl.fallowCh = c.val ∧
      cx'.hl.flg Reg.HL_FM_STATUS F.HL_FM_STATUS_TESTED = false) ∧
  (∀ (s : State) (m : CmdHead) (c : ChanId), s.serves m 0x0204 c → s.hl.fallowValid = true →
    answered (.fallowDesignate m) s m MbStatus.badState true c fun cx cx' => cx' = cx) ∧
  (∀ (s : State) (m : CmdHead) (c : ChanId), s.serving m 0x0205 → s.hl.fmBusy = false → s.hl.fallowValid = true → s.hl.fallowCh = c.val → (s.view c).mode = ModeCode.disabled →
    answeredHl (.fallowTest m) s m MbStatus.ok [] true fun h h' => h' = { h with testing := some m }) ∧
  ∀ (s : State) (m : CmdHead) (c : ChanId) (staging : Bool), s.ready c → s.hl.deferred = [] → s.hl.testing = some m →
    s.hl.fallowCh = c.val →
    completes (.fallowTestDone [] staging) s c fun cx cx' =>
      cx'.ch = { cx.ch with
        regs := cx'.ch.regs, tree := [], ctxm := [], buf := [], stg := [], badRows := [], ds := { cx.ch.ds with resume := [] } } ∧
      (∀ g < 4, cx'.fld (Reg.CH_SHEAF_PINS g) F.CH_SHEAF_PINS_COUNT = 0 ∧
        cx'.fld (Reg.CH_SHEAF_FRAGS g) F.CH_SHEAF_FRAGS_COUNT = 0) ∧
      cx'.fld Reg.CH_FRAG_STATUS F.CH_FRAG_STATUS_VALID_COUNT = 0 ∧
      Cx.regsBut cx cx' (Reg.CH_FRAG_STATUS :: (List.range 4).map Reg.CH_SHEAF_PINS ++ (List.range 4).map Reg.CH_SHEAF_FRAGS) [] ∧
      cx'.hl.testing = none ∧
      cx'.hl.flg Reg.HL_FM_STATUS F.HL_FM_STATUS_TESTED = !staging

/-- BANK_MIGRATE starts a migration of a granary bank to a free fallow bank; a bank above the last is BAD_ARG.
MIGRATION_SWITCH puts the fallow bank in the bank's place, with the bytes of every cell that was copied; an allocated
cell that the copier finds uncorrectable stays so there and is counted; a fallow bank retired meanwhile takes nothing
over. WEAR_SAMPLE notes each bank's errors; banks below the limit keep their service (R336, R524, R525, R528 to R530).
-/
def Obligations.BanksMigrateAndWear : Prop :=
  (∀ (s : State) (m : CmdHead) (c : ChanId) (bank : Fin 32), s.serves m 0x0206 c →
    (bank.val < 24 → s.hl.ho = none → (s.view c).migrating = false → (s.view c).mode = ModeCode.service →
      ∀ f, (s.view c).freeFb = some f →
      answered (.bankMigrate m 0 bank) s m MbStatus.ok true c fun cx cx' =>
        cx'.flg Reg.CH_GR_MIGRATE F.CH_GR_MIGRATE_BUSY = true ∧
        cx'.fld Reg.CH_GR_MIGRATE F.CH_GR_MIGRATE_BANK = bank.val ∧
        cx'.fld Reg.CH_GR_MIGRATE F.CH_GR_MIGRATE_TARGET = f ∧ Cx.regsBut cx cx' [Reg.CH_GR_MIGRATE] [] ∧
        cx' = { cx with ch := { cx.ch with
          regs := cx'.ch.regs, gr := { cx.ch.gr with copied := [], moved := [] } } }) ∧
    (24 ≤ bank.val → answered (.bankMigrate m 0 bank) s m MbStatus.badArg true c fun cx cx' => cx' = cx)) ∧
  (∀ (s : State) (c : ChanId), s.ready c → s.hl.deferred = [] → s.chans[c].coreStopped = false →
    (s.view c).flg Reg.CH_GR_MIGRATE F.CH_GR_MIGRATE_BUSY = true →
    ((s.view c).fbRetired ((s.view c).fld Reg.CH_GR_MIGRATE F.CH_GR_MIGRATE_TARGET) = false →
      (completes (.migrationSwitch ⟨c, []⟩ true) s c fun cx cx' =>
        cx'.flg Reg.CH_GR_MIGRATE F.CH_GR_MIGRATE_BUSY = false ∧
        cx'.fbValid (cx.fld Reg.CH_GR_MIGRATE F.CH_GR_MIGRATE_TARGET) = true ∧
        cx'.fbBank (cx.fld Reg.CH_GR_MIGRATE F.CH_GR_MIGRATE_TARGET) = cx.fld Reg.CH_GR_MIGRATE F.CH_GR_MIGRATE_BANK ∧
        cx'.hl.cnt Cnt.HL_CNT_FM_MIGRATIONS = cx.hl.cnt Cnt.HL_CNT_FM_MIGRATIONS + 1 ∧
        (∀ a, a / 131072 ≠ cx.fld Reg.CH_GR_MIGRATE F.CH_GR_MIGRATE_BANK ∨ cx.cellCopied (a / 256) = true →
          cx.ch.gr.copied = [] → Sparse.get zeroByte cx'.ch.buf a = Sparse.get zeroByte cx.ch.buf a) ∧
        (∀ a, a / 131072 = cx.fld Reg.CH_GR_MIGRATE F.CH_GR_MIGRATE_BANK → cx.cellCopied (a / 256) = false →
          cx.ch.gr.copied = [] → Sparse.get zeroByte cx'.ch.buf a = 0) ∧
        cx'.ch.tree = cx.ch.tree ∧ cx'.ch.ctxm = cx.ch.ctxm ∧ cx'.ch.stg = cx.ch.stg ∧
        Cx.regsBut cx cx' [Reg.CH_GR_MIGRATE, Reg.CH_GR_BANKS] [] ∧ cx'.ch.badRows = cx.ch.badRows) ∧
      ∀ i : Fin 12288, i.val / 512 = (s.view c).fld Reg.CH_GR_MIGRATE F.CH_GR_MIGRATE_BANK →
        (s.view c).cellCopied i.val = true → completes (.migrationSwitch ⟨c, [.bufUe i]⟩ true) s c fun cx cx' =>
          cx'.ch.badRows = cx.ch.badRows ++ [.bufUe i] ∧ cx'.flg Reg.CH_GR_MIGRATE F.CH_GR_MIGRATE_BUSY = false ∧
          cx'.fld (Reg.CH_GR_ERR (cx.bufBank (i.val / 512))) F.CH_GR_ERR_UE =
            min 255 (cx.fld (Reg.CH_GR_ERR (cx.bufBank (i.val / 512))) F.CH_GR_ERR_UE + 1) ∧
          cx'.ch.tree = cx.ch.tree ∧ cx'.ch.ctxm = cx.ch.ctxm ∧ cx'.ch.stg = cx.ch.stg) ∧
    ((s.view c).fbRetired ((s.view c).fld Reg.CH_GR_MIGRATE F.CH_GR_MIGRATE_TARGET) = true →
      completes (.migrationSwitch ⟨c, []⟩ true) s c fun cx cx' =>
        cx'.flg Reg.CH_GR_MIGRATE F.CH_GR_MIGRATE_BUSY = false ∧ Cx.only cx cx' [Reg.CH_GR_MIGRATE] [])) ∧
  ∀ s : State, s.up → s.hl.fwUp = true →
    (∀ (c : ChanId), ∀ b ∈ physBanks, s.chans[c].fld b.err F.CH_GR_ERR_UE = 0 ∧
      s.chans[c].fld b.err F.CH_GR_ERR_CE < s.hl.fld Reg.HL_FM_WEAR_CFG F.HL_FM_WEAR_CFG_CE_LIMIT) →
    ∃ t, exec .wearSample s = .next t ∧ t.pending = s.pending ∧ t.hl = s.hl ∧ ∀ c : ChanId,
      t.chans[c] = { s.chans[c] with fm := { s.chans[c].fm with wear := t.chans[c].fm.wear } } ∧
      (s.chans[c].coreStopped = false → s.hl.resetRuns c = false → ∀ b ∈ physBanks,
        (Sparse.get (fun _ => []) t.chans[c].fm.wear (32 * b.store + b.phys)).head? =
          some (s.hl.stu.tick.toNat / 1000000000, s.chans[c].fld b.err F.CH_GR_ERR_CE, 0))

/-! ### The management core -/

/-- MB_CMD_TAIL: a tail of the command ring is accepted between the old tail and the ring's size, and else ignored and
counted; the tail that stands, and one while EN is 0, change nothing. MB_RING_CTL_WRITE: a write of a ring's control
enables it at START or disables it. MB_CONS_WRITE: a consumer index is accepted up to the producer's.
MB_COMMAND_REREAD: a re-read after a non-fatal code counts, and a fatal code ends the taking of commands and the
Headland stream (R353, R553, R555, R589, R590, R658). The core takes a command only when R555 lets it, and answers it
with one 64-byte record: FW_INFO carries the state of both slots. A record that breaks R555 is answered BAD_ARG, one
of an unknown opcode UNKNOWN_OP, and without an image BAD_STATE, with nothing else done; a record whose mark does not
match is not taken (R555 to R558, R571). -/
def Obligations.MailboxServed : Prop :=
  ((∀ (s : State) (t : Word), s.listens →
    (s.hl.flg Reg.HL_MB_CMD_CTL F.HL_MB_CMD_CTL_EN = true →
      idxDiff (s.hl.get Reg.HL_MB_CMD_TAIL) (s.hl.get Reg.HL_MB_CMD_HEAD) ≤ idxDiff t (s.hl.get Reg.HL_MB_CMD_HEAD) →
      idxDiff t (s.hl.get Reg.HL_MB_CMD_HEAD) ≤ 2 ^ s.hl.fld Reg.HL_MB_CMD_CTL F.HL_MB_CMD_CTL_SIZE_LOG2 →
      completesHl (.mbCmdTail t) s fun h h' => h'.get Reg.HL_MB_CMD_TAIL = t ∧ Headland.only h h' [Reg.HL_MB_CMD_TAIL] []) ∧
    (s.hl.flg Reg.HL_MB_CMD_CTL F.HL_MB_CMD_CTL_EN = true →
      (2 ^ s.hl.fld Reg.HL_MB_CMD_CTL F.HL_MB_CMD_CTL_SIZE_LOG2 < idxDiff t (s.hl.get Reg.HL_MB_CMD_HEAD) ∨
        idxDiff t (s.hl.get Reg.HL_MB_CMD_HEAD) < idxDiff (s.hl.get Reg.HL_MB_CMD_TAIL) (s.hl.get Reg.HL_MB_CMD_HEAD)) →
      t ≠ s.hl.get Reg.HL_MB_CMD_TAIL →
      completesHl (.mbCmdTail t) s fun h h' => h' = h.inc Cnt.HL_CNT_MB_BAD_TAIL) ∧
    (s.hl.flg Reg.HL_MB_CMD_CTL F.HL_MB_CMD_CTL_EN = false ∨ t = s.hl.get Reg.HL_MB_CMD_TAIL →
      completesHl (.mbCmdTail t) s fun h h' => h' = h)) ∧
  (∀ (s : State) (r : Fin 3) (v : Word), s.listens →
    (s.hl.flg (mbCtl r) F.HL_MB_CMD_CTL_EN = false → getB v F.HL_MB_CMD_CTL_EN = true →
      mbSizeOk r (getF v F.HL_MB_CMD_CTL_SIZE_LOG2) = true → s.hl.mb.notes = [] →
      completesHl (.mbRingCtlWrite r v) s fun h h' =>
        h'.flg (mbCtl r) F.HL_MB_CMD_CTL_EN = true ∧
        h'.fld (mbCtl r) F.HL_MB_CMD_CTL_SIZE_LOG2 = getF v F.HL_MB_CMD_CTL_SIZE_LOG2 ∧
        h'.get (mbCore r) = h.get (mbStart r) ∧ h'.get (mbHost r) = h.get (mbStart r) ∧
        Headland.only h h' [mbCtl r, mbCore r, mbHost r] []) ∧
    (s.hl.flg (mbCtl r) F.HL_MB_CMD_CTL_EN = true → getB v F.HL_MB_CMD_CTL_EN = false →
      completesHl (.mbRingCtlWrite r v) s fun h h' =>
        h'.flg (mbCtl r) F.HL_MB_CMD_CTL_EN = false ∧ Headland.only h h' [mbCtl r] []) ∧
    (s.hl.flg (mbCtl r) F.HL_MB_CMD_CTL_EN = false → getB v F.HL_MB_CMD_CTL_EN = true →
      mbSizeOk r (getF v F.HL_MB_CMD_CTL_SIZE_LOG2) = false → completesHl (.mbRingCtlWrite r v) s fun h h' => h' = h)) ∧
  (∀ (s : State) (copy : Bool) (t : Word) (r : Nat), s.listens → r = (if copy then 2 else 1) →
    s.hl.flg (mbCtl r) F.HL_MB_CMD_CTL_EN = true →
    (idxDiff t (s.hl.get (mbHost r)) ≤ idxDiff (s.hl.get (mbCore r)) (s.hl.get (mbHost r)) → s.hl.mb.notes = [] →
      completesHl (.mbConsWrite copy t) s fun h h' => h'.get (mbHost r) = t ∧ Headland.only h h' [mbHost r] []) ∧
    (idxDiff (s.hl.get (mbCore r)) (s.hl.get (mbHost r)) < idxDiff t (s.hl.get (mbHost r)) →
      completesHl (.mbConsWrite copy t) s fun h h' => h' = h)) ∧
  ∀ (s : State) (code : Byte), s.up → s.hl.flg Reg.HL_MB_CMD_CTL F.HL_MB_CMD_CTL_EN = true →
    s.hl.get Reg.HL_MB_CMD_HEAD ≠ s.hl.get Reg.HL_MB_CMD_TAIL → s.hl.mb.dead = false →
    (0 < code.toNat → code.toNat < 0x80 → s.hl.deferred = [] → completesHl (.mbCommandReread code) s fun h h' =>
      h'.cnt Cnt.HL_CNT_HP_RETRY = h.cnt Cnt.HL_CNT_HP_RETRY + 1 ∧ h'.mb = h.mb ∧
      h'.get Reg.HL_MB_CMD_HEAD = h.get Reg.HL_MB_CMD_HEAD ∧ h'.get Reg.HL_MB_CMD_TAIL = h.get Reg.HL_MB_CMD_TAIL) ∧
    (0x80 ≤ code.toNat → (∀ r, .event r ∈ s.hl.stream.items → r.source < 512) → completesHl (.mbCommandReread code) s fun h h' =>
      h'.mb = { h.mb with dead := true } ∧ h'.canTake = false ∧ h'.fatal = true ∧ h'.stream.items = [] ∧
      h'.cnt Cnt.HL_CNT_HP_HL_DISCARD = h.cnt Cnt.HL_CNT_HP_HL_DISCARD + BitVec.ofNat 64 h.stream.items.length ∧
      h'.cnt Cnt.HL_CNT_HP_FATAL = h.cnt Cnt.HL_CNT_HP_FATAL + 1)) ∧
  ((∀ (s : State) (m : CmdHead), s.heads m 0x0405 → m.bad 0x0405 = false → s.hl.stream.items = [] →
    s.hl.fatal = false → s.hl.deferred = [] →
    completesHl (.fwInfo m) s fun h h' =>
      h'.get Reg.HL_MB_CMD_HEAD = h.get Reg.HL_MB_CMD_HEAD + 1 ∧ h'.cnt Cnt.HL_CNT_MB_CMDS = h.cnt Cnt.HL_CNT_MB_CMDS + 1 ∧
      h'.get Reg.HL_MB_RSP_PROD = h.get Reg.HL_MB_RSP_PROD + 1 ∧ h'.fw = h.fw ∧
      ∃ a bs rest, h'.stream.items = .data .mailbox a bs :: rest ∧ bs.length = 64 ∧
        bs.take 2 = leBytes 2 0x0405 ∧ (bs.drop 4).take 1 = [0] ∧ (bs.drop 8).take 4 = leBytes 4 m.tag.toNat ∧
        (bs.drop 24).take 20 = h.fwInfo) ∧
  (∀ (s : State) (m : CmdHead) (src tgt : Fin 32) (a : DWord) (b : Bool), s.heads m 0x0201 →
    (m.bad 0x0201 = true → answeredHl (.handover m src tgt a b) s m MbStatus.badArg [] true fun h h' => h' = h) ∧
    (m.bad 0x0201 = false → s.hl.noImage = true →
      answeredHl (.handover m src tgt a b) s m MbStatus.badState [] true fun h h' => h' = h)) ∧
  (∀ (s : State) (m : CmdHead), s.up → s.hl.canTake = true → s.hl.marked m = true → m.opcode ∉ knownOps →
    answeredHl (.fwInfo m) s m (if s.hl.noImage then MbStatus.badState else MbStatus.unknownOp) [] false
      fun h h' => h' = h) ∧
  ∀ (s : State) (m : CmdHead), s.up → s.hl.canTake = false ∨ s.hl.marked m = false →
    completesHl (.fwInfo m) s fun h h' => h' = h)

/-- MGMT_SEND in Service stores the frame with its FCS and enters it in the queue; outside Service, or with a length
out of range, it is answered so and nothing changes. KEY_ITEM loads or clears its slot of the channel's store and
engine by a key item at the cipher port, whose key beyond 16 bytes is zero for AES-128. SENSOR_SAMPLE shows every
reading, and the third reading in a row above the limit sets the alarm (R560 to R562, R564, R565, R604). -/
def Obligations.ManagementServices : Prop :=
  (∀ (s : State) (m : CmdHead) (c : ChanId) (len : BitVec 14) (q : Fin 256) (data : List Byte), s.serves m 0x0301 c →
    (0 < len.toNat → len.toNat ≤ 2044 → data.length = len.toNat → m.ecc = .none → (s.view c).mode = ModeCode.service →
      (s.view c).qEn true q = true →
      ((⟨c, s.chans[c], s.hl.take, .none⟩ : Cx).storeFrame Owner.mgmt false (padFcs data)).1.isSome = true →
      answered (.mgmtSend m len q data) s m MbStatus.ok true c fun cx cx' =>
        ∃ x, (cx'.txq q).frames = (cx.txq q).frames ++ [x] ∧ x.frame.len = (padFcs data).length ∧ x.queue = q.val ∧
          x.frame.up = true) ∧
    (0 < len.toNat → len.toNat ≤ 2044 → (s.view c).mode ≠ ModeCode.service →
      answered (.mgmtSend m len q data) s m MbStatus.badState true c fun cx cx' => cx' = cx) ∧
    (len.toNat = 0 ∨ 2044 < len.toNat →
      answered (.mgmtSend m len q data) s m MbStatus.badArg true c fun cx cx' => cx' = cx)) ∧
  (∀ (s : State) (c : ChanId) (set : Byte) (two : Bool) (key : Option (Bool × BitVec 256)), s.ready c →
    s.hl.fwUp = true → s.chans[c].coreStopped = false → s.hl.pins.testEn = false →
    completes (.keyItem c set two key) s c fun cx cx' =>
      Sparse.get (fun _ => none) cx'.hl.keyStore (512 * c.val + keyIndex set.toNat (if two then 2 else 1)) =
        key.map (fun k => KeySlot.of k.1 k.2) ∧
      (∀ k, k ≠ 512 * c.val + keyIndex set.toNat (if two then 2 else 1) →
        Sparse.get (fun _ => none) cx'.hl.keyStore k = Sparse.get (fun _ => none) cx.hl.keyStore k) ∧
      (keyIndex set.toNat (if two then 2 else 1) ∈ cx'.ch.keys ↔ key.isSome = true) ∧
      cx'.ch = { cx.ch with
        keys := cx'.ch.keys
        cpReq := some (3, cpKey (keyIndex set.toNat (if two then 2 else 1)) (key.map fun k => KeySlot.of k.1 k.2)) }) ∧
  ∀ (s : State) (temp : Vector (BitVec 16) 21) (volt age : Vector (BitVec 16) 38), s.up → s.hl.deferred = [] →
    completesHl (.sensorSample temp volt age) s fun h h' =>
      (∀ i : Fin 21, h'.get (Reg.HL_SNS_TEMP i) = (temp[i]).setWidth 32) ∧
      (∀ i : Fin 38, h'.get (Reg.HL_SNS_VOLT i) = (volt[i]).setWidth 32) ∧
      (∀ i : Fin 38, h'.get (Reg.HL_SNS_AGE i) = (age[i]).setWidth 32) ∧
      ∀ i : Fin 21, Sparse.get (fun _ => 0) h.beyond i = 2 → h.flg Reg.HL_SNS_ALARM_T ⟨i, 1⟩ = false →
        signed 16 (h.fld Reg.HL_SNS_TEMP_LIM F.HL_SNS_TEMP_LIM_ALARM) < signed 16 (temp[i]).toNat →
        h'.flg Reg.HL_SNS_ALARM_T ⟨i, 1⟩ = true

/-- COPY_DRAIN takes the oldest entry out of the core and writes it to the copy area's next slot, or counts it
dropped. LOG_RECORD writes the oldest record due at its place by sequence number; LOG_CONS_WRITE moves the reader;
LOG_PERSIST and PERSIST_RETRY put a record into the persist log or keep it for a retry (R559, R573 to R576). -/
def Obligations.CopiesAndLogs : Prop :=
  (∀ (s : State) (e : CoreEntry) (l : List CoreEntry), s.up → s.hl.fwUp = true → s.hl.core = e :: l →
    (s.hl.copyDiscard e = true → completesHl .copyDrain s fun h h' =>
      h'.core = l ∧ h'.cnt Cnt.HL_CNT_MB_COPY_DROP = h.cnt Cnt.HL_CNT_MB_COPY_DROP + 1 ∧ (∀ o, h'.get o = h.get o) ∧
      h' = { h with core := h'.core, cnts := h'.cnts }) ∧
    (s.hl.copyDiscard e = false → s.hl.stream.items = [] → s.hl.fatal = false → s.hl.deferred = [] →
      completesHl .copyDrain s fun h h' =>
        h'.core = l ∧ h'.get Reg.HL_MB_COPY_PROD = h.get Reg.HL_MB_COPY_PROD + 1 ∧
        ∃ bs rest, h'.stream.items = .data .copyArea (BitVec.ofNat 64 (slotAddr (h.get Reg.HL_MB_COPY_BASE_LO)
          (h.get Reg.HL_MB_COPY_BASE_HI) 2048 (h.fld Reg.HL_MB_COPY_CTL F.HL_MB_COPY_CTL_SIZE_LOG2)
          (h.get Reg.HL_MB_COPY_PROD))) bs :: rest)) ∧
  (∀ (s : State) (sev : Fin 4) (r : LogReq) (l : List LogReq), s.up → s.hl.fwUp = true → s.hl.deferred = [] →
    s.hl.mb.logDue = r :: l →
    completesHl (.logRecord sev) s fun h h' =>
      h'.get Reg.HL_LOG_SEQ = h.get Reg.HL_LOG_SEQ + 1 ∧ h'.mb.logDue = l ∧
      (∃ bs : List Byte, bs.length = 32 ∧ bs.take 4 = leBytes 4 (h.get Reg.HL_LOG_SEQ + 1).toNat ∧
        (bs.drop 8).take 8 = leBytes 8 h.stu.tick.toNat ∧
        (bs.drop 16) = (r.data ++ List.replicate 16 0).take 16 ∧ h'.mb.psDue = h.mb.psDue ++ [bs] ∧
        Sparse.bytes h'.log (32 * ((h.get Reg.HL_LOG_SEQ + 1).toNat % 2048)) 32 = bs) ∧
      ∀ a, a / 32 ≠ (h.get Reg.HL_LOG_SEQ + 1).toNat % 2048 → Sparse.get zeroByte h'.log a = Sparse.get zeroByte h.log a) ∧
  (∀ (s : State) (t : Word), s.listens → completesHl (.logConsWrite t) s fun h h' =>
    h'.get Reg.HL_LOG_CONS = t ∧ Headland.regsBut h h' [Reg.HL_LOG_CONS] [] ∧
    h' = { h with regs := h'.regs, mb := { h.mb with logHit := false } }) ∧
  ∀ (s : State) (bs : List Byte) (l : List (List Byte)), s.up → s.hl.fwUp = true → s.hl.mb.psDue = bs :: l →
    (s.hl.mb.psFail = false →
      (completesHl (.logPersist true) s fun h h' =>
        h'.mb.psDue = l ∧ h'.mb.psLog.getLast? = some bs ∧ h'.mb.psLog.length = min 8192 (h.mb.psLog.length + 1) ∧
        h' = { h with mb := h'.mb }) ∧
      completesHl (.logPersist false) s fun h h' =>
        h'.mb = { h.mb with psFail := true } ∧
        h'.cnt Cnt.HL_CNT_LOG_PERSIST_ERR = h.cnt Cnt.HL_CNT_LOG_PERSIST_ERR + 1 ∧
        h'.cnt Cnt.HL_CNT_PS_ERR = h.cnt Cnt.HL_CNT_PS_ERR + 1) ∧
    (s.hl.mb.psFail = true → completesHl (.persistRetry true) s fun _ h' =>
      h'.mb.psDue = l ∧ h'.mb.psFail = false ∧ h'.mb.psLog.getLast? = some bs)

/-! ### Performance, host port and frame port -/

/-- PM_SECOND completes and evaluates the calendar second that ended: a monitored second below the severe ratio keeps
the channel available, the tenth severe one in a row makes it unavailable, and counting starts anew; after a backward
step it only starts anew, and with a line frame of the second still arriving it is held until that frame is decided.
PM_PREV_COPY completes for a closed bin and moves its six registers to the Headland (R577, R578, R580, R582). -/
def Obligations.SecondsAndBins : Prop :=
  (∀ (s : State) (c : ChanId), s.ready c → s.hl.stu.sec ≠ 0 → (∀ l, s.chans[c].pm.last = some l → l < s.hl.stu.sec - 1) →
    s.chans[c].coreStopped = false → s.chans[c].pm.mon = true → s.chans[c].pm.held = none →
    (s.chans[c].pm.loss = false → 10 * s.chans[c].pm.err < 3 * s.chans[c].pm.lf → (s.view c).unavail = false →
      (s.view c).pmUndecided = false → s.chans[c].pm.open_ = [] →
      completes (.pmSecond c) s c fun cx cx' =>
        cx'.fld Reg.CH_PM_STATUS F.CH_PM_STATUS_RUN = 0 ∧ cx'.unavail = false ∧
        cx'.get Reg.CH_PM_LAST_SEC = BitVec.ofNat 32 (min 16383 cx.ch.pm.err) ∧ cx'.ch.pm.lf = 0 ∧ cx'.ch.pm.err = 0 ∧
        cx'.ch.pm.last = some (cx.hl.stu.sec - 1) ∧
        (∃ x, cx'.ch.pm.open_ = [x] ∧ x.sec = cx.hl.stu.sec - 1 ∧ x.ses = false ∧
          (x.es = true ↔ cx.ch.pm.err ≠ 0)) ∧
        Cx.regsBut cx cx' [Reg.CH_PM_STATUS, Reg.CH_PM_LAST_SEC] [] ∧ cx'.hl = cx.hl) ∧
    (s.chans[c].pm.loss = true → (s.view c).pmUndecided = false → (s.view c).unavail = false → (s.view c).fld Reg.CH_PM_STATUS F.CH_PM_STATUS_RUN = 9 →
      completes (.pmSecond c) s c fun _ cx' =>
        cx'.unavail = true ∧ cx'.fld Reg.CH_PM_STATUS F.CH_PM_STATUS_RUN = 0) ∧
    ((s.view c).pmUndecided = true → completes (.pmSecond c) s c fun cx cx' =>
      cx'.ch.pm.held = some ⟨cx.hl.stu.sec - 1, cx.ch.pm.lf, cx.ch.pm.err, cx.ch.pm.loss, true,
        cx.hl.cnt Cnt.HL_CNT_STU_STEPS⟩ ∧
      cx'.ch.pm.lf = 0 ∧ cx'.ch.pm.err = 0 ∧ cx'.ch.pm.open_ = cx.ch.pm.open_ ∧
      cx' = { cx with ch := { cx.ch with pm := cx'.ch.pm } })) ∧
  (∀ (s : State) (c : ChanId) (l : Nat), s.ready c → s.chans[c].pm.held = none → s.chans[c].pm.last = some l → s.hl.stu.sec - 1 ≤ l →
    completes (.pmSecond c) s c fun cx cx' =>
      cx'.ch.pm.lf = 0 ∧ cx'.ch.pm.err = 0 ∧ cx'.ch.pm.open_ = cx.ch.pm.open_ ∧ cx'.ch.pm.last = some l ∧
      cx' = { cx with ch := { cx.ch with pm := cx'.ch.pm } }) ∧
  ∀ (s : State) (c : ChanId), s.ready c → s.hl.fwUp = true → s.chans[c].coreStopped = false → s.hl.deferred = [] →
    (s.chans[c].pm.due15 = true → completes (.pmPrevCopy c false) s c fun cx cx' =>
      (∀ k < 6, cx'.hl.get (Reg.HL_PM_PREV15_START_LO c + 4 * k) = cx.get (Reg.CH_PM_LAST15_START_LO + 4 * k)) ∧
      cx'.ch = { cx.ch with pm := { cx.ch.pm with due15 := false } }) ∧
    (s.chans[c].pm.due24 = true → completes (.pmPrevCopy c true) s c fun cx cx' =>
      (∀ k < 6, cx'.hl.get (Reg.HL_PM_PREV24_START_LO c + 4 * k) = cx.get (Reg.CH_PM_LAST24_START_LO + 4 * k)) ∧
      cx'.ch = { cx.ch with pm := { cx.ch.pm with due24 := false } })

/-- HOST_READ_TIMEOUT and HOST_WRITE_TIMEOUT count, and then act as the answer with code 0x04 of the same read or
write. HOST_WRITE_RESPONSE with code 0 takes the write that was issued off its stream, and nothing happens where none
was issued; a non-fatal code counts a try, of which the fourth is fatal; a fatal code halts the channel, or sets
HL_FATAL and discards the Headland stream (R587, R589, R590, R655). -/
def Obligations.HostPortAnswers : Prop :=
  (∀ (s : State) (c : ChanId), s.ready c →
    (∀ k : Fin 36, (s.view c).readPending (.doorbell k) = true →
      (s.view c).modeIn [ModeCode.disabled, ModeCode.halted] = false →
      ∃ t, exec (.hostReadTimeout (.ring c (.doorbell k))) s = .next t ∧
        exec (.hostReadRetry c (.doorbell k) 4) { s with hl := s.hl.inc Cnt.HL_CNT_HP_RD_TIMEOUT } = .next t) ∧
    ∀ (q : Fin 256) (stored : List Byte), (s.view c).finishing = true → ((s.view c).txq q).storing.isSome = true →
      ∃ t, exec (.hostReadTimeout (.txBuffer c q stored)) s = .next t ∧
        exec (.txBufferReadError c q stored 4) { s with hl := s.hl.inc Cnt.HL_CNT_HP_RD_TIMEOUT } = .next t) ∧
  (∀ (s : State) (n : Fin 8) (good : Nat) (host : List Byte), s.up → s.hl.mvState n = MvState.running →
    (s.hl.mv n).sp false = Space.host →
    ∃ t, exec (.hostReadTimeout (.mover n good host)) s = .next t ∧
      exec (.moverRetry n 4 false good host .none) { s with hl := s.hl.inc Cnt.HL_CNT_HP_RD_TIMEOUT } = .next t) ∧
  (∀ (s : State) (st : StreamId), s.up → s.writing st = true →
    ∃ t, exec (.hostWriteTimeout st) s = .next t ∧
      exec (.hostWriteResponse st 4) { s with hl := s.hl.inc Cnt.HL_CNT_HP_WR_TIMEOUT } = .next t) ∧
  (∀ (s : State) (c : ChanId) (k : WrKind) (a : DWord) (bs : List Byte) (code : Byte), s.ready c →
    s.chans[c].stream.items = [.data k a bs] → s.chans[c].stream.issued = true → s.hl.deferred = [] → (s.view c).mode = ModeCode.service →
    (completes (.hostWriteResponse (.chan c) 0) s c fun cx cx' =>
      cx' = { cx with ch := { cx.ch with stream := { cx.ch.stream with items := [], tries := 0, issued := false } } }) ∧
    (0 < code.toNat → code.toNat < 0x80 → s.chans[c].stream.tries < 3 →
      completes (.hostWriteResponse (.chan c) code) s c fun cx cx' =>
        cx'.ch = { cx.ch with stream := cx'.ch.stream } ∧ cx'.ch.stream.items = cx.ch.stream.items ∧
        cx'.ch.stream.tries = cx.ch.stream.tries + 1 ∧
        cx'.hl.cnt Cnt.HL_CNT_HP_RETRY = cx.hl.cnt Cnt.HL_CNT_HP_RETRY + 1) ∧
    (0x80 ≤ code.toNat ∨ (0 < code.toNat ∧ 3 ≤ s.chans[c].stream.tries) →
      completes (.hostWriteResponse (.chan c) code) s c fun cx cx' =>
        cx'.mode = ModeCode.halted ∧ cx'.fld Reg.CH_HALT_CAUSE F.CH_HALT_CAUSE_CAUSE = Halt.hostFatal ∧
        cx'.fld Reg.CH_HALT_CAUSE F.CH_HALT_CAUSE_DETAIL = code.toNat ∧ cx'.ch.stream.items = [] ∧
        cx'.hl.cnt Cnt.HL_CNT_HP_FATAL = cx.hl.cnt Cnt.HL_CNT_HP_FATAL + 1)) ∧
  (∀ (s : State) (k : WrKind) (a : DWord) (bs : List Byte) (rest : List StreamItem) (code : Byte), s.up →
    s.hl.stream.items = .data k a bs :: rest → s.hl.stream.issued = true → (∀ r, .event r ∈ rest → r.source < 512) → 0x80 ≤ code.toNat →
    completesHl (.hostWriteResponse .headland code) s fun h h' =>
      h'.fatal = true ∧ h'.stream.items = [] ∧ h'.cnt Cnt.HL_CNT_HP_FATAL = h.cnt Cnt.HL_CNT_HP_FATAL + 1 ∧
      h'.cnt Cnt.HL_CNT_HP_HL_DISCARD = h.cnt Cnt.HL_CNT_HP_HL_DISCARD + BitVec.ofNat 64 rest.length) ∧
  (∀ (s : State) (c : ChanId) (code : Byte), s.ready c → s.chans[c].stream.issued = false →
    completes (.hostWriteResponse (.chan c) code) s c fun cx cx' => cx' = cx) ∧
  ∀ (s : State) (n : Fin 8) (w : MvWrite) (l : List MvWrite), s.up → (s.hl.mv n).out = w :: l → w.record = true →
    w.off = none → completesHl (.hostWriteResponse (.mover n) 0) s fun h h' =>
      h'.mv n = { h.mv n with out := l } ∧ (∀ j, j ≠ n.val → h'.mv j = h.mv j) ∧
      Headland.regsBut h h' [Reg.MV_STATUS n] [] ∧ h' = { h with movers := h'.movers, regs := h'.regs }

/-- FP_IN_FRAME with a field that R610 reserves is counted BAD_META; one that finds no room waits; one of another
length than it announced is counted LEN_ERR; a good one is stored and counted. FP_OUT_FRAME sends the head of a ready
lane, counts a head held by XOFF once, ends a frame whose cells show an uncorrectable error early and counts it, waits
while the pads are held, and with FP_EN = 0 drops what waits. FP_EN_WRITE writes FP_EN (R486, R607 to R613). -/
def Obligations.FramePortMovesFrames : Prop :=
  (∀ (s : State) (c : ChanId) (raw : BitVec 256) (bytes : List Byte) (abort : Bool) (ecc : EccFault), s.ready c →
    (s.view c).fpiOpen = true →
    ((fpiMeta raw).bad = true → completes (.fpInFrame c raw bytes abort ecc) s c fun cx cx' =>
      cx' = { (cx.inc Cnt.CH_CNT_FP_IN_BAD_META) with ch := { (cx.inc Cnt.CH_CNT_FP_IN_BAD_META).ch with fpWait := false } }) ∧
    ((fpiMeta raw).bad = false → ((s.view c).reserve (cellsFor (max (fpiMeta raw).len 60 + 4))).2 = false →
      completes (.fpInFrame c raw bytes abort ecc) s c fun cx cx' =>
        cx'.ch.fpWait = true ∧ cx'.hl = cx.hl ∧ Chan.sameMems cx.ch cx'.ch ∧ cx'.reserved = cx.reserved ∧
        Cx.regsBut cx cx' [] [Cnt.CH_CNT_GR_RESERVE_WAIT]) ∧
    ∀ cx1 cx2 e, (fpiMeta raw).bad = false →
      ({ s.view c with ecc := ecc } : Cx).reserve (cellsFor (max (fpiMeta raw).len 60 + 4)) = (cx1, true) →
      (cx1.setFpWait false).enter (fpiMeta raw).ctx
        ((cx1.setFpWait false).fld (Reg.CH_TXQ_MAP (fpiMeta raw).queue) F.CH_TXQ_MAP_PORT) = (e, cx2) →
      (bytes.length ≠ (fpiMeta raw).len → completes (.fpInFrame c raw bytes abort ecc) s c fun cx cx' =>
        cx'.ch.cnt Cnt.CH_CNT_FP_IN_LEN_ERR = cx.ch.cnt Cnt.CH_CNT_FP_IN_LEN_ERR + 1 ∧ cx'.ch.fpWait = false) ∧
      (bytes.length = (fpiMeta raw).len → abort = false →
        (cx2.storeFrame Owner.usFp true (padFcs bytes)).1.isSome = true →
        completes (.fpInFrame c raw bytes abort ecc) s c fun cx cx' =>
          cx'.ch.cnt Cnt.CH_CNT_FP_IN_FRAMES = cx.ch.cnt Cnt.CH_CNT_FP_IN_FRAMES + 1 ∧ cx'.ch.fpWait = false)) ∧
  (∀ (s : State) (c : ChanId) (n : Fin 16) (xoff : BitVec 16) (d : FpDeliv) (l : List FpDeliv), s.ready c → s.hl.pins.testEn = false →
    (s.view c).running = true → (s.view c).fpEn = true → (s.view c).lane n = d :: l →
    (∀ k, k ≠ n.val → (s.view c).lane k = []) → (s.view c).flg Reg.CH_PWR_STATUS F.CH_PWR_STATUS_PAD_HELD = false →
    (xoff.getLsbD n = false → ((s.view c).checkChain d.frame.cell).2 = .whole → s.chans[c].badRows = [] →
      s.chans[c].gr.ring.length + ((s.view c).chainFrom 63 d.frame.cell).1.length ≤ numCells →
      (completes (.fpOutFrame c xoff .none) s c fun cx cx' =>
        cx'.lane n = l ∧ (∃ m, cx'.ch.fpo = some (n.val, m, cx.frameBytes d.frame.cell (cx.deliverLen d.frame d.trunc))) ∧
        cx'.ch.cnt Cnt.CH_CNT_FP_OUT_FRAMES = cx.ch.cnt Cnt.CH_CNT_FP_OUT_FRAMES + 1) ∧
      ∀ i : Fin 12288, i.val ∈ ((s.view c).chainFrom 63 d.frame.cell).1.take
          (((s.view c).deliverLen d.frame d.trunc + 255) / 256) →
        completes (.fpOutFrame c xoff (.bufUe i)) s c fun cx cx' =>
          cx'.lane n = l ∧ cx'.ch.cnt Cnt.CH_CNT_FP_OUT_ABORTED = cx.ch.cnt Cnt.CH_CNT_FP_OUT_ABORTED + 1 ∧
          cx'.ch.cnt Cnt.CH_CNT_FP_OUT_FRAMES = cx.ch.cnt Cnt.CH_CNT_FP_OUT_FRAMES ∧
          cx'.ch.cnt Cnt.CH_CNT_GR_ECC_UNCORR = cx.ch.cnt Cnt.CH_CNT_GR_ECC_UNCORR + 1) ∧
    (xoff.getLsbD n = true → d.waited = false → completes (.fpOutFrame c xoff .none) s c fun cx cx' =>
      cx'.lane n = { d with waited := true } :: l ∧
      cx'.ch.cnt Cnt.CH_CNT_FP_XOFF_WAIT = cx.ch.cnt Cnt.CH_CNT_FP_XOFF_WAIT + 1 ∧
      Cx.regsBut cx cx' [Reg.CH_PORT_STATUS] [Cnt.CH_CNT_FP_XOFF_WAIT] ∧ cx'.ch.fpo = cx.ch.fpo ∧ cx'.hl = cx.hl)) ∧
  (∀ (s : State) (c : ChanId) (xoff : BitVec 16), s.ready c → s.hl.pins.testEn = false → (s.view c).running = true →
    ((s.view c).flg Reg.CH_PWR_STATUS F.CH_PWR_STATUS_PAD_HELD = true →
      completes (.fpOutFrame c xoff .none) s c fun cx cx' => Cx.only cx cx' [Reg.CH_PORT_STATUS] []) ∧
    ((s.view c).flg Reg.CH_PWR_STATUS F.CH_PWR_STATUS_PAD_HELD = false → (s.view c).fpEn = false →
    completes (.fpOutFrame c xoff .none) s c fun cx cx' =>
      (∀ n < 16, cx'.lane n = []) ∧ cx'.ch.fpo = cx.ch.fpo ∧
      cx'.ch.cnt Cnt.CH_CNT_FP_OUT_DROP = cx.ch.cnt Cnt.CH_CNT_FP_OUT_DROP +
        BitVec.ofNat 64 ((List.range 16).map fun n => (cx.lane n).length).sum)) ∧
  ∀ (s : State) (c : ChanId) (v : Word), s.takes c →
    (getB v F.CH_PORT_CFG_FP_EN = true → completes (.fpEnWrite ⟨c, .none⟩ v) s c fun cx cx' =>
      cx'.fpEn = true ∧ Cx.only cx cx' [Reg.CH_PORT_CFG] []) ∧
    (getB v F.CH_PORT_CFG_FP_EN = false → (∀ n < 16, (s.view c).lane n = []) →
      completes (.fpEnWrite ⟨c, .none⟩ v) s c fun cx cx' =>
        cx'.fpEn = false ∧ cx'.ch.fpWait = false ∧ Cx.regsBut cx cx' [Reg.CH_PORT_CFG] [] ∧ cx'.hl = cx.hl ∧
        Chan.sameMems cx.ch cx'.ch)

/-! ### The whole block -/

/-- A step runs the command at the front of the queue with the queue's rest. On an empty queue one cycle of the clock
passes (the model's choice, log entry 1), which leaves the queue empty; the statement EmptyQueuePassesACycle says what
passes. -/
def Obligations.StepRunsTheFrontCommand : Prop :=
  (∀ (s : State) (i : Instr) (rest : List Instr), s.pending = i :: rest → step s = exec i { s with pending := rest }) ∧
  ∀ s : State, s.pending = [] → ∃ t, step s = .next t ∧ t.pending = [] ∧
    (s.hl.pins.resetHeld = true → t = s)

/-- In a step on an empty queue the tick count and its fraction rise by the increment of R410; a requested device
reset that is due begins (R633); the first stream of the round whose head write waits has it issued, and the turn
passes on behind it, none while TEST_EN is 1 (R36, R624); a glean that runs passes eight cells, and puts those that
are free into the ring (R330); while the device reset is held nothing happens (R634). That a cycle passes when no
command waits, and the eight cells and the one turn in a cycle, are the model's choices (log entries 1, 61 and 120).
-/
def Obligations.EmptyQueuePassesACycle : Prop :=
  (∀ s t : State, s.pending = [] → step s = .next t →
    (s.hl.pins.resetHeld = true → t = s) ∧
    (s.up → t.hl.stu.tick.toNat * 2 ^ 48 + t.hl.stu.frac =
      (s.hl.stu.tick.toNat * 2 ^ 48 + s.hl.stu.frac + (cycleInc s.hl.stuY).toNat) % 2 ^ 112) ∧
    (∀ a, s.up → s.hl.pins.resetAt = some a →
      t.hl.pins.resetHeld = decide (a.toNat ≤ (s.hl.stu.advance s.hl.stuY).tick.toNat)) ∧
    (s.up → s.hl.pins.resetAt = none → t.up)) ∧
  (∀ s t : State, s.pending = [] → s.up → s.hl.pins.resetAt = none → step s = .next t →
    (s.cycle.hl.pins.testEn = true → t = s.cycle) ∧
    (s.cycle.hl.pins.testEn = false → s.cycle.hl.turn < 18 →
      (∀ k < 18, s.cycle.turnReady ((s.cycle.hl.turn + k) % 18) = true →
        (∀ j < k, s.cycle.turnReady ((s.cycle.hl.turn + j) % 18) = false) →
        t.hl.turn = (s.cycle.hl.turn + k + 1) % 18 ∧
        (∀ c : ChanId, t.chans[c] = (if c.val = (s.cycle.hl.turn + k) % 18 then
          { s.cycle.chans[c] with stream := { s.cycle.chans[c].stream with issued := true } } else s.cycle.chans[c])) ∧
        t.hl.stream = (if (s.cycle.hl.turn + k) % 18 = 17 then { s.cycle.hl.stream with issued := true }
          else s.cycle.hl.stream)) ∧
      ((∀ n < 18, s.cycle.turnReady n = false) → t = s.cycle))) ∧
  ∀ (s t : State) (c : ChanId), s.pending = [] → s.ready c → s.hl.ho = none → step s = .next t →
    (s.view c).gleaning = true → (s.view c).modeIn [ModeCode.stop, ModeCode.halted] = false → s.chans[c].badRows = [] →
    (s.view c).grPos + 8 < numCells → s.chans[c].gr.ring.length + 8 ≤ numCells → s.chans[c].us.txEn = false →
    (∀ i < 8, ((s.view c).cell ((s.view c).grPos + i)).alloc = false ∧
      ((s.view c).cell ((s.view c).grPos + i)).inconsistent = false) →
    (t.view c).grPos = (s.view c).grPos + 8 ∧ t.chans[c].gr.ring = s.chans[c].gr.ring ++
      (List.range 8).map fun i => (s.view c).grPos + i

/-- After a device reset every channel is Disabled, channel 16 alone reads CH_MODE.FALLOW as 1, every other register
reads its reset value of R646 and every counter zero; no command waits and every table is in canonical form (R55, R76,
R646). -/
def Obligations.ResetStateIsTheSpecs : Prop :=
  (∀ c : ChanId, State.reset.chans[c].mode = ModeCode.disabled ∧
    State.reset.chans[c].fld Reg.CH_MODE F.CH_MODE_MODE = ModeCode.disabled ∧
    State.reset.chans[c].flg Reg.CH_MODE F.CH_MODE_FALLOW = decide (c.val = 16) ∧
    (∀ off, off ≠ Reg.CH_MODE → State.reset.chans[c].get off = chReset off) ∧
    (∀ off, State.reset.chans[c].cnt off = 0) ∧ State.reset.chans[c].us.txEn = false) ∧
  (∀ off, State.reset.hl.get off = hlReset off) ∧ (∀ off, State.reset.hl.cnt off = 0) ∧
  State.reset.hl.get Reg.HL_PWR_BUDGET = 640 ∧ State.reset.hl.stu.tick = 0 ∧
  State.reset.pending = [] ∧ State.reset.queueOk = true ∧ State.reset.canonical = true

/-- Every command, whatever its operands and whatever the state, answers a next state and leaves the queue alone; so
every step does, takes one command off a queue that holds one, and keeps every waiting command well-formed. -/
def Obligations.EveryStepCompletes : Prop :=
  (∀ (i : Instr) (s : State), ∃ t, exec i s = .next t ∧ t.pending = s.pending) ∧
  ∀ s : State, ∃ t, step s = .next t ∧ t.pending = s.pending.tail ∧ (s.queueOk = true → t.queueOk = true)

/-- In Halted, with the clock running, commands that write a channel's core island are discarded and change nothing;
while the clock is stopped each is discarded and counted as a stopped access, and changes nothing else (R46, R67). -/
def Obligations.HaltedAndStoppedDiscardWrites : Prop :=
  ∀ (s : State) (c : ChanId) (i : Instr) (g : Fin 4) (e : Fin 256) (k : Fin 64) (v : Word) (off : BitVec 16),
    s.listens → s.hl.resetRuns c = false →
    i ∈ [Instr.build c g, .abandon c g, .disarm c g, .commit c g, .release c g, .fragTableDisable c, .tkeyCommit c,
      .keyProfileWrite c off v, .treeSelWrite c off v, .tsqPop c, .dbKick c k, .integWrite (some c) v,
      .drillWrite (some c) e, .drillRead (some c) e, .drillDisarm (some c) e,
      .fpEnWrite ⟨c, .none⟩ v] →
    (s.chans[c].coreStopped = false → s.chans[c].mode = ModeCode.halted → exec i s = .next s) ∧
    (s.chans[c].coreStopped = true → completes i s c fun cx cx' => cx' = cx.inc Cnt.CH_CNT_PWR_STOPPED_ACCESS)

/-- A halt, a channel reset, a Stop entry or wake, or a handover on one channel leaves every other channel as it was:
a command that concerns one channel changes no other; a reset, however it is requested, changes no other but those of
a handover that it ends, nor does the end of a wake but those of a handover; the rows of a handover change none but
its source and target; and the rows of the host port, the windows and the mover, in which a channel may halt, change
none but the one they act on (R32). However many commands one channel is given, and whatever they make of it, every
other channel is in the state it was in before the first of them (from R32). -/
def Obligations.ChannelsAreIsolated : Prop :=
  ((∀ (i : Instr) (c d : ChanId) (s t : State), i.chan? = some c → d ≠ c → exec i s = .next t →
    t.chans[d] = s.chans[d]) ∧
  (∀ (c d : ChanId) (s t : State) (i : Instr) (v : Word) (off : BitVec 16) (wide : Bool) (w : DWord), d ≠ c →
    (∀ ho, s.hl.ho = some ho → (d ≠ chanOf ho.src ∧ d ≠ chanOf ho.tgt) ∨ (c.val ≠ ho.src ∧ c.val ≠ ho.tgt)) →
    i ∈ [Instr.chResetGo c v, .registerWrite (BitVec.ofNat 21 (0x40000 + 0x10000 * c.val + off.toNat)) wide w] →
    exec i s = .next t → t.chans[d] = s.chans[d]) ∧
  (∀ (mask : BitVec 17) (w : DWord) (d : ChanId) (s t : State) (i : Instr), nbit mask.toNat d.val = false →
    (∀ k < 17, nbit w.toNat k = nbit mask.toNat k) →
    (∀ ho, s.hl.ho = some ho → (d ≠ chanOf ho.src ∧ d ≠ chanOf ho.tgt) ∨
      (nbit mask.toNat ho.src = false ∧ nbit mask.toNat ho.tgt = false)) →
    i ∈ [Instr.hlRstChanReq mask, .registerWrite (BitVec.ofNat 21 Reg.HL_RST_CHAN_LO) false w] →
    exec i s = .next t → t.chans[d] = s.chans[d]) ∧
  (∀ (c d : ChanId) (s t : State) (flips : List SealFlip) (ues ces : List (Fin 50)), d ≠ c →
    (∀ ho, s.hl.ho = some ho → d ≠ chanOf ho.src ∧ d ≠ chanOf ho.tgt) →
    exec (.wakeComplete c flips ⟨ues, ces⟩) s = .next t → t.chans[d] = s.chans[d]) ∧
  (∀ (d : ChanId) (s t : State) (i : Instr) (m : CmdHead) (halts : Nat) (a b : Bool) (version : BitVec 16)
    (cfg : List (BitVec 16 × Word)),
    (∀ ho, s.hl.ho = some ho → d ≠ chanOf ho.src ∧ d ≠ chanOf ho.tgt) →
    i ∈ [Instr.handoverPrepareDone halts version cfg, .handoverFreeze a, .handoverTransfer halts b, .handoverSwitch,
      .handoverResumeDone, .handoverAbort m] → exec i s = .next t → t.chans[d] = s.chans[d]) ∧
  (∀ (d : ChanId) (s t : State) (m : CmdHead) (src tgt : Fin 32) (a : DWord) (b : Bool), d.val ≠ src.val →
    d.val ≠ tgt.val → exec (.handover m src tgt a b) s = .next t → t.chans[d] = s.chans[d]) ∧
  (∀ (d : ChanId) (s t : State) (st : StreamId) (code : Byte) (i : Instr), st ≠ .chan d →
    i ∈ [Instr.hostWriteResponse st code, .hostWriteTimeout st] → exec i s = .next t → t.chans[d] = s.chans[d]) ∧
  (∀ (c d : ChanId) (s t : State) (w : ReadWhat) (q : Fin 256) (stored : List Byte) (i : Instr), d ≠ c →
    i ∈ [Instr.hostReadTimeout (.ring c w), .hostReadTimeout (.txBuffer c q stored), .hostReadTimeout .command] →
    exec i s = .next t → t.chans[d] = s.chans[d]) ∧
  (∀ (d : ChanId) (s t : State) (tree : Bool) (acc : WinAcc) (ecc : EccFault),
    s.hl.fld (iwSel tree) F.HL_IW_TREE_SEL_CHAN ≠ d.val → exec (.windowAccess tree acc ecc) s = .next t →
    t.chans[d] = s.chans[d]) ∧
  (∀ (d : ChanId) (s t : State) (n : Fin 8) (good : Nat) (host : List Byte) (ecc : EccFault),
    s.hl.fld (Reg.MV_SPACE n) F.MV_SPACE_SRC_CHAN ≠ d.val → s.hl.fld (Reg.MV_SPACE n) F.MV_SPACE_DST_CHAN ≠ d.val →
    exec (.moverStart n good host ecc) s = .next t → t.chans[d] = s.chans[d]) ∧
  ∀ (d : ChanId) (s t : State) (n : Fin 8) (code : Byte) (dst : Bool) (good : Nat) (host : List Byte) (ecc : EccFault)
    (i : Instr), (s.hl.mv n).chan false ≠ d.val → (s.hl.mv n).chan true ≠ d.val →
    i ∈ [Instr.moverRetry n code dst good host ecc, .hostReadTimeout (.mover n good host), .moverDone n] →
    exec i s = .next t → t.chans[d] = s.chans[d]) ∧
  (∀ (c d : ChanId) (is : List Instr) (s t : State), (∀ i ∈ is, i.chan? = some c) → d ≠ c → run is s = .next t →
    t.chans[d] = s.chans[d])

/-- While the device reset is held, no command but its end changes a channel, a register, a counter or a memory: of
the block only the answer to an access, and the pins of the reset and of test access, change, and the reset stays
held. So it is along every run without DEVICE_RESET_DONE (R623, R625, R634). -/
def Obligations.HeldResetFreezesTheBlock : Prop :=
  (∀ (i : Instr) (s t : State), s.hl.pins.resetHeld = true → i ≠ .deviceResetDone → exec i s = .next t →
    t.chans = s.chans ∧ t.hl.pins.resetHeld = true ∧
    t.hl = { s.hl with
      pins := { s.hl.pins with rsp := t.hl.pins.rsp, testEn := t.hl.pins.testEn, rstN := t.hl.pins.rstN, resetAt := t.hl.pins.resetAt } }) ∧
  (∀ (addr : BitVec 21) (wide : Bool) (v : DWord) (s : State), s.hl.pins.resetHeld = true →
    ∃ t, exec (.registerWrite addr wide v) s = .next t ∧ t.hl.pins.rsp = some (0, true)) ∧
  ∀ (is : List Instr) (s t : State), s.hl.pins.resetHeld = true → .deviceResetDone ∉ is → run is s = .next t →
    t.chans = s.chans ∧ t.hl.pins.resetHeld = true ∧
    t.hl = { s.hl with
      pins := { s.hl.pins with rsp := t.hl.pins.rsp, testEn := t.hl.pins.testEn, rstN := t.hl.pins.rstN, resetAt := t.hl.pins.resetAt } }

/-- Every memory keeps its canonical form, so that equal memories are equal data: reset has it, and whatever a step
runs keeps it, through every store that the spec gives a command (R76, R163, R269, R307, R505, R573). -/
def Obligations.MemoriesStayCanonical : Prop :=
  State.reset.memsWf = true ∧ ∀ s t : State, s.memsWf = true → step s = .next t → t.memsWf = true

/-- A memory is written by its own commands and by no other: tree memory through the windows, the mover, a handover,
the fallow test, the resets and a wake (R76, R307, R489, R505, R536, R551); the firmware image memory by the mover
(R567); the key store by key items, IDENTITY_CLEAR and a handover (R542, R563); the log by LOG_RECORD (R573); the
persistent identity records by IDENTITY_PERSIST, and not even a device reset changes them (R76, R163). -/
def Obligations.MemoriesWrittenOnlyByTheirCommands : Prop :=
  ∀ (i : Instr) (s t : State), exec i s = .next t →
    (i.storesTree = false → ∀ c : ChanId, t.chans[c].tree = s.chans[c].tree) ∧
    (i.storesImage = false → t.hl.fwImage = s.hl.fwImage) ∧
    (i.storesKeys = false → t.hl.keyStore = s.hl.keyStore) ∧
    (i.storesLog = false → t.hl.log = s.hl.log) ∧
    (i.storesPersistent = false → t.hl.psIdent = s.hl.psIdent)

/-- The tick count is 0 at device reset, and no command steps, sets or writes it or its fraction, a calendar step
among them; in whatever step, it changes only by the increment of R410, or to its reset value (R412). -/
def Obligations.TickCountNeverStepped : Prop :=
  State.reset.hl.stu.tick = 0 ∧
  (∀ (i : Instr) (s t : State), exec i s = .next t →
    (t.hl.stu.tick = s.hl.stu.tick ∧ t.hl.stu.frac = s.hl.stu.frac) ∨ (i = .deviceResetDone ∧ t.hl.stu.tick = 0)) ∧
  ∀ s t : State, step s = .next t →
    (t.hl.stu.tick = s.hl.stu.tick ∧ t.hl.stu.frac = s.hl.stu.frac) ∨
    (s.pending.head? = some .deviceResetDone ∧ t.hl.stu.tick = 0) ∨
    t.hl.stu.tick.toNat * 2 ^ 48 + t.hl.stu.frac =
      (s.hl.stu.tick.toNat * 2 ^ 48 + s.hl.stu.frac + (cycleInc s.hl.stuY).toNat) % 2 ^ 112
end

