-- ==== Sys2Proof/Laws/Exec.lean ====
section
/-!
SUPPORT. The meaning of each command, constructor by constructor.
-/

namespace Sys2Proof.Machine

open Sys2Proof

theorem exec_registerWrite (addr : BitVec 21) (wide : Bool) (v : DWord) (s : State) : exec (.registerWrite addr wide v) s = execRegisterWrite addr wide v s := rfl
theorem exec_counterLowRead (addr : BitVec 21) (s : State) : exec (.counterLowRead addr) s = execCounterLowRead addr s := rfl
theorem exec_stoppedAccess (c : ChanId) (off : BitVec 16) (wide : Bool) (write : Option DWord) (s : State) : exec (.stoppedAccess c off wide write) s = execStoppedAccess c off wide write s := rfl
theorem exec_accessTimeout (c : ChanId) (wide read : Bool) (s : State) : exec (.accessTimeout c wide read) s = execAccessTimeout c wide read s := rfl
theorem exec_unalignedTargetAccess (addr : BitVec 21) (wide : Bool) (write : Option DWord) (s : State) : exec (.unalignedTargetAccess addr wide write) s = execUnalignedTargetAccess addr wide write s := rfl
theorem exec_enable (c : ChanId) (fastOk : Bool) (s : State) : exec (.enable c fastOk) s = execEnable c fastOk s := rfl
theorem exec_orderlyDisable (c : ReadBy) (fastOk : Bool) (s : State) : exec (.orderlyDisable c fastOk) s = execOrderlyDisable c fastOk s := rfl
theorem exec_disableComplete (c : ReadBy) (s : State) : exec (.disableComplete c) s = execDisableComplete c s := rfl
theorem exec_chResetGo (c : ChanId) (v : Word) (s : State) : exec (.chResetGo c v) s = execChResetGo c v s := rfl
theorem exec_hlRstChanReq (mask : BitVec 17) (s : State) : exec (.hlRstChanReq mask) s = execHlRstChanReq mask s := rfl
theorem exec_channelResetDone (c : ChanId) (s : State) : exec (.channelResetDone c) s = execChannelResetDone c s := rfl
theorem exec_wedgeDetect (c : ChanId) (s : State) : exec (.wedgeDetect c) s = execWedgeDetect c s := rfl
theorem exec_hlRstDeviceGo (v : Word) (s : State) : exec (.hlRstDeviceGo v) s = execHlRstDeviceGo v s := rfl
theorem exec_rstNAssert (s : State) : exec (.rstNAssert) s = execRstNAssert s := rfl
theorem exec_deviceResetDone (s : State) : exec (.deviceResetDone) s = execDeviceResetDone s := rfl
theorem exec_fwBoot (dev : Option BootDev) (s : State) : exec (.fwBoot dev) s = execFwBoot dev s := rfl
theorem exec_dsCfgWrite (c : ChanId) (v : Word) (s : State) : exec (.dsCfgWrite c v) s = execDsCfgWrite c v s := rfl
theorem exec_lineFrameStart (c : ChanId) (x : LineIn) (s : State) : exec (.lineFrameStart c x) s = execLineFrameStart c x s := rfl
theorem exec_framerSyncLoss (w : FramerWord) (s : State) : exec (.framerSyncLoss w) s = execFramerSyncLoss w s := rfl
theorem exec_envelopeRx (c : ChanId) (hdr : DWord) (hec : Hec) (counter : DWord) (payload : List Byte) (ecc : EccFault) (s : State) : exec (.envelopeRx c hdr hec counter payload ecc) s = execEnvelopeRx c hdr hec counter payload ecc s := rfl
theorem exec_cipherReturn (c : ChanId) (seedA : DWord) (seedB : Word) (plain : List Byte) (err : Bool) (late : Nat) (ecc : EccFault) (s : State) : exec (.cipherReturn c seedA seedB plain err late ecc) s = execCipherReturn c seedA seedB plain err late ecc s := rfl
theorem exec_reasmTimeout (c : ChanId) (ctx : Fin 16384) (ecc : EccFault) (s : State) : exec (.reasmTimeout c ctx ecc) s = execReasmTimeout c ctx ecc s := rfl
theorem exec_pauseTimerExpiry (c : ChanId) (n : Fin 9) (s : State) : exec (.pauseTimerExpiry c n) s = execPauseTimerExpiry c n s := rfl
theorem exec_dsMgmtMessage (c : ChanId) (ok : Bool) (acts : List MgmtAct) (replies : List (List Byte)) (s : State) : exec (.dsMgmtMessage c ok acts replies) s = execDsMgmtMessage c ok acts replies s := rfl
theorem exec_to1Expiry (c : ChanId) (s : State) : exec (.to1Expiry c) s = execTo1Expiry c s := rfl
theorem exec_to2Expiry (c : ChanId) (s : State) : exec (.to2Expiry c) s = execTo2Expiry c s := rfl
theorem exec_fastReentryAccept (c : ChanId) (s : State) : exec (.fastReentryAccept c) s = execFastReentryAccept c s := rfl
theorem exec_fastReentryFail (c : ChanId) (s : State) : exec (.fastReentryFail c) s = execFastReentryFail c s := rfl
theorem exec_identityPersist (c : ChanId) (ok : Bool) (s : State) : exec (.identityPersist c ok) s = execIdentityPersist c ok s := rfl
theorem exec_serialSet (m : CmdHead) (serial : DWord) (regId : BitVec 288) (s : State) : exec (.serialSet m serial regId) s = execSerialSet m serial regId s := rfl
theorem exec_identityRead (m : CmdHead) (addr : DWord) (s : State) : exec (.identityRead m addr) s = execIdentityRead m addr s := rfl
theorem exec_identityClear (m : CmdHead) (s : State) : exec (.identityClear m) s = execIdentityClear m s := rfl
theorem exec_portRegister (m : CmdHead) (port : BitVec 16) (ctx : BitVec 14) (s : State) : exec (.portRegister m port ctx) s = execPortRegister m port ctx s := rfl
theorem exec_portRelease (m : CmdHead) (port : BitVec 16) (s : State) : exec (.portRelease m port) s = execPortRelease m port s := rfl
theorem exec_fastPolicy (m : CmdHead) (v : Bool) (s : State) : exec (.fastPolicy m v) s = execFastPolicy m v s := rfl
theorem exec_burstDue (c : ChanId) (rets : List CipherRet) (ecc : EccFault) (s : State) : exec (.burstDue c rets ecc) s = execBurstDue c rets ecc s := rfl
theorem exec_burstStart (c : ChanId) (wait : Bool) (fault : StageFault) (s : State) : exec (.burstStart c wait fault) s = execBurstStart c wait fault s := rfl
theorem exec_txEnOn (c : ChanId) (rogue : Bool) (s : State) : exec (.txEnOn c rogue) s = execTxEnOn c rogue s := rfl
theorem exec_txEnOff (c : ReadBy) (s : State) : exec (.txEnOff c) s = execTxEnOff c s := rfl
theorem exec_frameSent (c : ChanId) (s : State) : exec (.frameSent c) s = execFrameSent c s := rfl
theorem exec_parseCfgWrite (c : ChanId) (n : Fin 3) (v : Word) (s : State) : exec (.parseCfgWrite c n v) s = execParseCfgWrite c n v s := rfl
theorem exec_keyProfileWrite (c : ChanId) (off : BitVec 16) (v : Word) (s : State) : exec (.keyProfileWrite c off v) s = execKeyProfileWrite c off v s := rfl
theorem exec_treeSelWrite (c : ChanId) (off : BitVec 16) (v : Word) (s : State) : exec (.treeSelWrite c off v) s = execTreeSelWrite c off v s := rfl
theorem exec_fragAgeOut (c : ChanId) (n : Fin 1024) (s : State) : exec (.fragAgeOut c n) s = execFragAgeOut c n s := rfl
theorem exec_fragTableDisable (c : ChanId) (s : State) : exec (.fragTableDisable c) s = execFragTableDisable c s := rfl
theorem exec_tkeyCommit (c : ChanId) (s : State) : exec (.tkeyCommit c) s = execTkeyCommit c s := rfl
theorem exec_build (c : ChanId) (g : Fin 4) (s : State) : exec (.build c g) s = execBuild c g s := rfl
theorem exec_abandon (c : ChanId) (g : Fin 4) (s : State) : exec (.abandon c g) s = execAbandon c g s := rfl
theorem exec_disarm (c : ChanId) (g : Fin 4) (s : State) : exec (.disarm c g) s = execDisarm c g s := rfl
theorem exec_commit (c : ChanId) (g : Fin 4) (s : State) : exec (.commit c g) s = execCommit c g s := rfl
theorem exec_release (c : ChanId) (g : Fin 4) (s : State) : exec (.release c g) s = execRelease c g s := rfl
theorem exec_rootCheckDone (c : ReadBy) (s : State) : exec (.rootCheckDone c) s = execRootCheckDone c s := rfl
theorem exec_armedCommit (c : ChanId) (s : State) : exec (.armedCommit c) s = execArmedCommit c s := rfl
theorem exec_slotDrained (c : ChanId) (g : Fin 4) (s : State) : exec (.slotDrained c g) s = execSlotDrained c g s := rfl
theorem exec_gleanGo (c : ChanId) (s : State) : exec (.gleanGo c) s = execGleanGo c s := rfl
theorem exec_toBitmap (c : ChanId) (s : State) : exec (.toBitmap c) s = execToBitmap c s := rfl
theorem exec_gleanDone (c : ReadBy) (s : State) : exec (.gleanDone c) s = execGleanDone c s := rfl
theorem exec_bankMigrate (m : CmdHead) (store : Fin 4) (bank : Fin 32) (s : State) : exec (.bankMigrate m store bank) s = execBankMigrate m store bank s := rfl
theorem exec_migrationSwitch (c : CopyReads) (gran : Bool) (s : State) : exec (.migrationSwitch c gran) s = execMigrationSwitch c gran s := rfl
theorem exec_wearSample (s : State) : exec (.wearSample) s = execWearSample s := rfl
theorem exec_dbBaseWrite (c : ChanId) (hi : Bool) (v : Word) (s : State) : exec (.dbBaseWrite c hi v) s = execDbBaseWrite c hi v s := rfl
theorem exec_queueEnable (c : ChanId) (tx : Bool) (q : Fin 256) (v : Word) (s : State) : exec (.queueEnable c tx q v) s = execQueueEnable c tx q v s := rfl
theorem exec_queueTakedown (c : ReadBy) (tx : Bool) (q : Fin 256) (v : Word) (s : State) : exec (.queueTakedown c tx q v) s = execQueueTakedown c tx q v s := rfl
theorem exec_queueIdle (c : ChanId) (tx : Bool) (q : Fin 256) (s : State) : exec (.queueIdle c tx q) s = execQueueIdle c tx q s := rfl
theorem exec_takedownGrantTimeout (c : ChanId) (q : Fin 256) (s : State) : exec (.takedownGrantTimeout c q) s = execTakedownGrantTimeout c q s := rfl
theorem exec_doorbellPoll (c : ChanId) (s : State) : exec (.doorbellPoll c) s = execDoorbellPoll c s := rfl
theorem exec_hpInvalidate (line : BitVec 58) (s : State) : exec (.hpInvalidate line) s = execHpInvalidate line s := rfl
theorem exec_dbKick (c : ChanId) (k : Fin 64) (s : State) : exec (.dbKick c k) s = execDbKick c k s := rfl
theorem exec_doorbellLineRead (c : ChanId) (k : Fin 36) (ts : List Word) (s : State) : exec (.doorbellLineRead c k ts) s = execDoorbellLineRead c k ts s := rfl
theorem exec_descriptorFetch (c : ChanId) (tx : Bool) (q : Fin 256) (idx : Word) (slots : List (List Byte)) (s : State) : exec (.descriptorFetch c tx q idx slots) s = execDescriptorFetch c tx q idx slots s := rfl
theorem exec_ownReread (c : ChanId) (tx : Bool) (q : Fin 256) (slot : List Byte) (s : State) : exec (.ownReread c tx q slot) s = execOwnReread c tx q slot s := rfl
theorem exec_hostReadRetry (c : ChanId) (w : ReadWhat) (code : Byte) (s : State) : exec (.hostReadRetry c w code) s = execHostReadRetry c w code s := rfl
theorem exec_txFrameStart (c : ChanId) (s : State) : exec (.txFrameStart c) s = execTxFrameStart c s := rfl
theorem exec_txFrameStored (c : ChanId) (q : Fin 256) (bytes : List Byte) (ecc : EccFault) (s : State) : exec (.txFrameStored c q bytes ecc) s = execTxFrameStored c q bytes ecc s := rfl
theorem exec_txBufferReadError (c : ChanId) (q : Fin 256) (stored : List Byte) (code : Byte) (s : State) : exec (.txBufferReadError c q stored code) s = execTxBufferReadError c q stored code s := rfl
theorem exec_rxWriteOut (c : ChanId) (q : Fin 256) (ecc : EccFault) (s : State) : exec (.rxWriteOut c q ecc) s = execRxWriteOut c q ecc s := rfl
theorem exec_rxHoldExpiry (c : ReadBy) (q : Fin 256) (s : State) : exec (.rxHoldExpiry c q) s = execRxHoldExpiry c q s := rfl
theorem exec_cringEnable (c : ChanId) (r : Fin 64) (v : Word) (s : State) : exec (.cringEnable c r v) s = execCringEnable c r v s := rfl
theorem exec_cringDisable (c : ChanId) (r : Fin 64) (v : Word) (s : State) : exec (.cringDisable c r v) s = execCringDisable c r v s := rfl
theorem exec_cringArm (c : ChanId) (r : Fin 64) (t : Word) (s : State) : exec (.cringArm c r t) s = execCringArm c r t s := rfl
theorem exec_heldCompletionWrite (c : ReadBy) (r : Fin 64) (s : State) : exec (.heldCompletionWrite c r) s = execHeldCompletionWrite c r s := rfl
theorem exec_cplStallRelease (c : ChanId) (r : Fin 64) (ecc : EccFault) (s : State) : exec (.cplStallRelease c r ecc) s = execCplStallRelease c r ecc s := rfl
theorem exec_eventRecordHead (stream : Option ChanId) (s : State) : exec (.eventRecordHead stream) s = execEventRecordHead stream s := rfl
theorem exec_eventDeferredWrite (n : Fin 16) (s : State) : exec (.eventDeferredWrite n) s = execEventDeferredWrite n s := rfl
theorem exec_evrDisable (n : Fin 16) (v : Word) (s : State) : exec (.evrDisable n v) s = execEvrDisable n v s := rfl
theorem exec_evrConsWrite (n : Fin 16) (t : Word) (s : State) : exec (.evrConsWrite n t) s = execEvrConsWrite n t s := rfl
theorem exec_evrHoldoffExpiry (n : Fin 16) (s : State) : exec (.evrHoldoffExpiry n) s = execEvrHoldoffExpiry n s := rfl
theorem exec_vecUnmask (hi : Bool) (v : Word) (s : State) : exec (.vecUnmask hi v) s = execVecUnmask hi v s := rfl
theorem exec_stuAdj (s : State) : exec (.stuAdj) s = execStuAdj s := rfl
theorem exec_stuSet (s : State) : exec (.stuSet) s = execStuSet s := rfl
theorem exec_stuSnapshot (s : State) : exec (.stuSnapshot) s = execStuSnapshot s := rfl
theorem exec_stuSourceChange (v : Word) (s : State) : exec (.stuSourceChange v) s = execStuSourceChange v s := rfl
theorem exec_ppsInEdge (s : State) : exec (.ppsInEdge) s = execPpsInEdge s := rfl
theorem exec_ppsGapTimeout (s : State) : exec (.ppsGapTimeout) s = execPpsGapTimeout s := rfl
theorem exec_sourceInvalid (src : Option ChanId) (s : State) : exec (.sourceInvalid src) s = execSourceInvalid src s := rfl
theorem exec_ppsOutRise (s : State) : exec (.ppsOutRise) s = execPpsOutRise s := rfl
theorem exec_ppsOutFall (s : State) : exec (.ppsOutFall) s = execPpsOutFall s := rfl
theorem exec_todOutSend (s : State) : exec (.todOutSend) s = execTodOutSend s := rfl
theorem exec_todInMessage (m : List Byte) (inTime : Bool) (s : State) : exec (.todInMessage m inTime) s = execTodInMessage m inTime s := rfl
theorem exec_tuMsgArm (c : ChanId) (sfc : BitVec 51) (sec : BitVec 48) (ns : BitVec 30) (teqd : Word) (s : State) : exec (.tuMsgArm c sfc sec ns teqd) s = execTuMsgArm c sfc sec ns teqd s := rfl
theorem exec_holdoverExpiry (unit : Option ChanId) (s : State) : exec (.holdoverExpiry unit) s = execHoldoverExpiry unit s := rfl
theorem exec_integWrite (unit : Option ChanId) (v : Word) (s : State) : exec (.integWrite unit v) s = execIntegWrite unit v s := rfl
theorem exec_tsqPop (c : ChanId) (s : State) : exec (.tsqPop c) s = execTsqPop c s := rfl
theorem exec_drillWrite (d : Option ChanId) (e : Fin 256) (s : State) : exec (.drillWrite d e) s = execDrillWrite d e s := rfl
theorem exec_drillRead (d : Option ChanId) (e : Fin 256) (s : State) : exec (.drillRead d e) s = execDrillRead d e s := rfl
theorem exec_drillDisarm (d : Option ChanId) (e : Fin 256) (s : State) : exec (.drillDisarm d e) s = execDrillDisarm d e s := rfl
theorem exec_drillFire (d : Option ChanId) (e : Fin 256) (s : State) : exec (.drillFire d e) s = execDrillFire d e s := rfl
theorem exec_pulseEnd (n : Fin 16) (s : State) : exec (.pulseEnd n) s = execPulseEnd n s := rfl
theorem exec_captureArm (n : Fin 8) (v : Word) (s : State) : exec (.captureArm n v) s = execCaptureArm n v s := rfl
theorem exec_captureEdge (n : Fin 8) (edge : Edge) (s : State) : exec (.captureEdge n edge) s = execCaptureEdge n edge s := rfl
theorem exec_captureTimeout (n : Fin 8) (s : State) : exec (.captureTimeout n) s = execCaptureTimeout n s := rfl
theorem exec_idleTimerExpiry (c : ChanId) (s : State) : exec (.idleTimerExpiry c) s = execIdleTimerExpiry c s := rfl
theorem exec_stopRequest (c : ChanId) (v : Word) (s : State) : exec (.stopRequest c v) s = execStopRequest c v s := rfl
theorem exec_stopEntry (c : ChanId) (s : State) : exec (.stopEntry c) s = execStopEntry c s := rfl
theorem exec_stopAbortDone (c : ChanId) (s : State) : exec (.stopAbortDone c) s = execStopAbortDone c s := rfl
theorem exec_stopEntered (c : ChanId) (s : State) : exec (.stopEntered c) s = execStopEntered c s := rfl
theorem exec_wakeRequest (c : ChanId) (w : WakeBy) (s : State) : exec (.wakeRequest c w) s = execWakeRequest c w s := rfl
theorem exec_stopTimerExpiry (c : ChanId) (s : State) : exec (.stopTimerExpiry c) s = execStopTimerExpiry c s := rfl
theorem exec_wakeComplete (c : ChanId) (flips : List SealFlip) (errs : SealErrs) (s : State) : exec (.wakeComplete c flips errs) s = execWakeComplete c flips errs s := rfl
theorem exec_brownOut (c : ChanId) (s : State) : exec (.brownOut c) s = execBrownOut c s := rfl
theorem exec_padRelease (c : ChanId) (s : State) : exec (.padRelease c) s = execPadRelease c s := rfl
theorem exec_dvfsFreqRequest (mg : Bool) (n : Fin 4) (s : State) : exec (.dvfsFreqRequest mg n) s = execDvfsFreqRequest mg n s := rfl
theorem exec_dvfsVoltRequest (mg : Bool) (n : Fin 4) (s : State) : exec (.dvfsVoltRequest mg n) s = execDvfsVoltRequest mg n s := rfl
theorem exec_dvfsFreqDone (s : State) : exec (.dvfsFreqDone) s = execDvfsFreqDone s := rfl
theorem exec_dvfsVoltDone (s : State) : exec (.dvfsVoltDone) s = execDvfsVoltDone s := rfl
theorem exec_budgetWrite (v : Word) (s : State) : exec (.budgetWrite v) s = execBudgetWrite v s := rfl
theorem exec_budgetArbitrate (s : State) : exec (.budgetArbitrate) s = execBudgetArbitrate s := rfl
theorem exec_moverGo (n : Fin 8) (v : Word) (s : State) : exec (.moverGo n v) s = execMoverGo n v s := rfl
theorem exec_moverStart (n : Fin 8) (good : Nat) (host : List Byte) (ecc : EccFault) (s : State) : exec (.moverStart n good host ecc) s = execMoverStart n good host ecc s := rfl
theorem exec_moverRetry (n : Fin 8) (code : Byte) (dst : Bool) (good : Nat) (host : List Byte) (ecc : EccFault) (s : State) : exec (.moverRetry n code dst good host ecc) s = execMoverRetry n code dst good host ecc s := rfl
theorem exec_moverDone (n : Fin 8) (s : State) : exec (.moverDone n) s = execMoverDone n s := rfl
theorem exec_moverClear (n : Fin 8) (s : State) : exec (.moverClear n) s = execMoverClear n s := rfl
theorem exec_moverAbort (n : Fin 8) (s : State) : exec (.moverAbort n) s = execMoverAbort n s := rfl
theorem exec_windowSelectWrite (tree : Bool) (v : Word) (s : State) : exec (.windowSelectWrite tree v) s = execWindowSelectWrite tree v s := rfl
theorem exec_windowAccess (tree : Bool) (acc : WinAcc) (ecc : EccFault) (s : State) : exec (.windowAccess tree acc ecc) s = execWindowAccess tree acc ecc s := rfl
theorem exec_handover (m : CmdHead) (src tgt : Fin 32) (buffer : DWord) (hostCfg : Bool) (s : State) : exec (.handover m src tgt buffer hostCfg) s = execHandover m src tgt buffer hostCfg s := rfl
theorem exec_handoverFreeze (retired : Bool) (s : State) : exec (.handoverFreeze retired) s = execHandoverFreeze retired s := rfl
theorem exec_handoverTransfer (halts : Nat) (crcOk : Bool) (s : State) : exec (.handoverTransfer halts crcOk) s = execHandoverTransfer halts crcOk s := rfl
theorem exec_handoverSwitch (s : State) : exec (.handoverSwitch) s = execHandoverSwitch s := rfl
theorem exec_handoverResumeDone (s : State) : exec (.handoverResumeDone) s = execHandoverResumeDone s := rfl
theorem exec_handoverAbort (m : CmdHead) (s : State) : exec (.handoverAbort m) s = execHandoverAbort m s := rfl
theorem exec_configExport (m : CmdHead) (buffer : DWord) (s : State) : exec (.configExport m buffer) s = execConfigExport m buffer s := rfl
theorem exec_fallowDesignate (m : CmdHead) (s : State) : exec (.fallowDesignate m) s = execFallowDesignate m s := rfl
theorem exec_fallowTest (m : CmdHead) (s : State) : exec (.fallowTest m) s = execFallowTest m s := rfl
theorem exec_fallowTestDone (bad : List (Fin 48)) (staging : Bool) (s : State) : exec (.fallowTestDone bad staging) s = execFallowTestDone bad staging s := rfl
theorem exec_mbCmdTail (t : Word) (s : State) : exec (.mbCmdTail t) s = execMbCmdTail t s := rfl
theorem exec_mbRingCtlWrite (r : Fin 3) (v : Word) (s : State) : exec (.mbRingCtlWrite r v) s = execMbRingCtlWrite r v s := rfl
theorem exec_mbCommandReread (code : Byte) (s : State) : exec (.mbCommandReread code) s = execMbCommandReread code s := rfl
theorem exec_mgmtSend (m : CmdHead) (len : BitVec 14) (q : Fin 256) (data : List Byte) (s : State) : exec (.mgmtSend m len q data) s = execMgmtSend m len q data s := rfl
theorem exec_fwStage (m : CmdHead) (s : State) : exec (.fwStage m) s = execFwStage m s := rfl
theorem exec_fwWrite (m : CmdHead) (b : Bool) (s : State) : exec (.fwWrite m b) s = execFwWrite m b s := rfl
theorem exec_fwWriteDone (ok : Bool) (s : State) : exec (.fwWriteDone ok) s = execFwWriteDone ok s := rfl
theorem exec_fwActivate (m : CmdHead) (b : Bool) (s : State) : exec (.fwActivate m b) s = execFwActivate m b s := rfl
theorem exec_fwReady (s : State) : exec (.fwReady) s = execFwReady s := rfl
theorem exec_fwRevert (s : State) : exec (.fwRevert) s = execFwRevert s := rfl
theorem exec_fwAccept (m : CmdHead) (ok : Bool) (s : State) : exec (.fwAccept m ok) s = execFwAccept m ok s := rfl
theorem exec_fwInfo (m : CmdHead) (s : State) : exec (.fwInfo m) s = execFwInfo m s := rfl
theorem exec_copyDrain (s : State) : exec (.copyDrain) s = execCopyDrain s := rfl
theorem exec_keyItem (c : ChanId) (set : Byte) (two : Bool) (key : Option (Bool × BitVec 256)) (s : State) : exec (.keyItem c set two key) s = execKeyItem c set two key s := rfl
theorem exec_sensorSample (temp : Vector (BitVec 16) 21) (volt age : Vector (BitVec 16) 38) (s : State) : exec (.sensorSample temp volt age) s = execSensorSample temp volt age s := rfl
theorem exec_logRecord (sev : Fin 4) (s : State) : exec (.logRecord sev) s = execLogRecord sev s := rfl
theorem exec_logConsWrite (t : Word) (s : State) : exec (.logConsWrite t) s = execLogConsWrite t s := rfl
theorem exec_persistRetry (ok : Bool) (s : State) : exec (.persistRetry ok) s = execPersistRetry ok s := rfl
theorem exec_pmSecond (c : ChanId) (s : State) : exec (.pmSecond c) s = execPmSecond c s := rfl
theorem exec_pmPrevCopy (c : ChanId) (day : Bool) (s : State) : exec (.pmPrevCopy c day) s = execPmPrevCopy c day s := rfl
theorem exec_hostReadTimeout (r : HostRead) (s : State) : exec (.hostReadTimeout r) s = execHostReadTimeout r s := rfl
theorem exec_hostWriteTimeout (st : StreamId) (s : State) : exec (.hostWriteTimeout st) s = execHostWriteTimeout st s := rfl
theorem exec_hostWriteResponse (st : StreamId) (code : Byte) (s : State) : exec (.hostWriteResponse st code) s = execHostWriteResponse st code s := rfl
theorem exec_fpInFrame (c : ChanId) (raw : BitVec 256) (bytes : List Byte) (abort : Bool) (ecc : EccFault) (s : State) : exec (.fpInFrame c raw bytes abort ecc) s = execFpInFrame c raw bytes abort ecc s := rfl
theorem exec_fpOutFrame (c : ChanId) (xoff : BitVec 16) (ecc : EccFault) (s : State) : exec (.fpOutFrame c xoff ecc) s = execFpOutFrame c xoff ecc s := rfl
theorem exec_fpEnWrite (c : ReadBy) (v : Word) (s : State) : exec (.fpEnWrite c v) s = execFpEnWrite c v s := rfl
theorem exec_sdLoss (c : ChanId) (level : Bool) (s : State) : exec (.sdLoss c level) s = execSdLoss c level s := rfl
theorem exec_heartbeat (c : ChanId) (s : State) : exec (.heartbeat c) s = execHeartbeat c s := rfl
theorem exec_handoverPrepareDone (halts : Nat) (version : BitVec 16) (cfg : List (BitVec 16 × Word)) (s : State) : exec (.handoverPrepareDone halts version cfg) s = execHandoverPrepareDone halts version cfg s := rfl
theorem exec_mbConsWrite (copy : Bool) (t : Word) (s : State) : exec (.mbConsWrite copy t) s = execMbConsWrite copy t s := rfl
theorem exec_evrEnable (n : Fin 16) (v : Word) (s : State) : exec (.evrEnable n v) s = execEvrEnable n v s := rfl
theorem exec_dsWordAfterEnd (w : FramerWord) (s : State) : exec (.dsWordAfterEnd w) s = execDsWordAfterEnd w s := rfl
theorem exec_logPersist (ok : Bool) (s : State) : exec (.logPersist ok) s = execLogPersist ok s := rfl
theorem exec_testEnChange (v : Bool) (s : State) : exec (.testEnChange v) s = execTestEnChange v s := rfl

end Sys2Proof.Machine
end

