-- ==== Sys2Proof/Laws/Seals.lean ====
section
/-!
SUPPORT. Which seals fail at a wake (R488, R489).
-/

namespace Sys2Proof.Machine

open Sys2Proof

/-- The signatures do not depend on the power sequencer. -/
@[simp] theorem Cx.signature_setPwr (cx : Cx) (p : Pwr) (now : DWord) (g : Nat) :
    (cx.setPwr p).signature now g = cx.signature now g := rfl

@[simp] theorem Cx.hiddenFlips_nil (cx : Cx) (g : Nat) : cx.hiddenFlips g [] = 0 := by simp [Cx.hiddenFlips]

/-- Where every stored signature is that of its group and no row is bad, only groups read with an uncorrectable error
fail. -/
theorem Cx.sealFailures_kept (cx : Cx) (ues : List Nat) (hb : cx.ch.badRows = [])
    (h : cx.ch.pwr.seals = (List.range 50).map (cx.signature cx.ch.pwr.since)) :
    cx.sealFailures [] ues = (List.range 50).filter ues.contains := by
  refine List.filter_congr fun g hg => ?_
  have hg : g < 50 := List.mem_range.1 hg
  simp [h, hg, hb, Cx.sealBadRow]

end Sys2Proof.Machine
end

