-- ==== Sys2Proof/Laws/Store.lean ====
section
/-!
SUPPORT. Laws of sparse tables (read after write; every operation keeps the canonical form) and of register fields.
-/

namespace Sys2Proof.Machine

open Sys2Proof

/-! ### Read after write -/

theorem Sparse.get_erase {α : Type} (d : Nat → α) (l : Sparse α) (k j : Nat) :
    Sparse.get d (Sparse.erase l k) j = if j = k then d k else Sparse.get d l j := by
  induction l with
  | nil => by_cases h : j = k <;> simp [Sparse.erase, Sparse.get, h]
  | cons e l ih =>
    obtain ⟨a, v⟩ := e
    by_cases ha : k = a
    · subst ha; simp only [Sparse.erase, if_true, ih, Sparse.get]
      by_cases hj : j = k <;> simp [hj]
    · simp only [Sparse.erase, if_neg ha, Sparse.get, ih]
      by_cases hj : j = a
      · subst hj; simp [Ne.symm ha]
      · simp [hj]

theorem Sparse.get_insert {α : Type} (d : Nat → α) (l : Sparse α) (k j : Nat) (v : α)
    (h : ∀ e ∈ l, e.1 ≠ k) :
    Sparse.get d (Sparse.insert l k v) j = if j = k then v else Sparse.get d l j := by
  induction l with
  | nil => rfl
  | cons e l ih =>
    obtain ⟨a, w⟩ := e
    have ha : a ≠ k := h (a, w) (by simp)
    simp only [Sparse.insert]
    by_cases hk : k < a
    · simp [hk, Sparse.get]
    · rw [if_neg hk]
      simp only [Sparse.get, ih fun e he => h e (by simp [he])]
      by_cases hj : j = a
      · subst hj; simp [ha]
      · simp [hj]

theorem Sparse.erase_keys {α : Type} (l : Sparse α) (k : Nat) : ∀ e ∈ Sparse.erase l k, e.1 ≠ k := by
  induction l with
  | nil => simp [Sparse.erase]
  | cons e l ih =>
    obtain ⟨a, v⟩ := e
    by_cases ha : k = a
    · subst ha; rw [Sparse.erase, if_pos rfl]; exact ih
    · intro x hx
      simp only [Sparse.erase, if_neg ha, List.mem_cons] at hx
      rcases hx with rfl | hx
      · exact Ne.symm ha
      · exact ih x hx

/-- A read after a write gives the value written; every other key reads as before. -/
theorem Sparse.get_set {α : Type} [DecidableEq α] (d : Nat → α) (l : Sparse α) (k j : Nat) (v : α) :
    Sparse.get d (Sparse.set d l k v) j = if j = k then v else Sparse.get d l j := by
  unfold Sparse.set
  split
  · rename_i hv; rw [Sparse.get_erase, hv]
  · rw [Sparse.get_insert _ _ _ _ _ (Sparse.erase_keys l k), Sparse.get_erase]
    by_cases hj : j = k <;> simp [hj]

@[simp] theorem Sparse.get_set_same {α : Type} [DecidableEq α] (d : Nat → α) (l : Sparse α) (k : Nat) (v : α) :
    Sparse.get d (Sparse.set d l k v) k = v := by simp [Sparse.get_set]

theorem Sparse.get_set_other {α : Type} [DecidableEq α] (d : Nat → α) (l : Sparse α) (k j : Nat) (v : α)
    (h : j ≠ k) : Sparse.get d (Sparse.set d l k v) j = Sparse.get d l j := by simp [Sparse.get_set, h]

/-! ### The canonical form -/

theorem Sparse.wfFrom_mono {α : Type} [DecidableEq α] (d : Nat → α) (l : Sparse α) (a b : Nat) (h : a ≤ b)
    (w : Sparse.wfFrom d b l = true) : Sparse.wfFrom d a l = true := by
  cases l with
  | nil => rfl
  | cons e l =>
    obtain ⟨k, v⟩ := e
    simp only [Sparse.wfFrom, Bool.and_eq_true, decide_eq_true_eq] at w ⊢
    exact ⟨⟨by omega, w.1.2⟩, w.2⟩

theorem Sparse.wfFrom_erase {α : Type} [DecidableEq α] (d : Nat → α) (l : Sparse α) (k b : Nat)
    (w : Sparse.wfFrom d b l = true) : Sparse.wfFrom d b (Sparse.erase l k) = true := by
  induction l generalizing b with
  | nil => rfl
  | cons e l ih =>
    obtain ⟨a, v⟩ := e
    simp only [Sparse.wfFrom, Bool.and_eq_true, decide_eq_true_eq] at w
    simp only [Sparse.erase]
    split
    · exact ih b (Sparse.wfFrom_mono d l b (a + 1) (by omega) w.2)
    · simp only [Sparse.wfFrom, Bool.and_eq_true, decide_eq_true_eq]
      exact ⟨w.1, ih (a + 1) w.2⟩

theorem Sparse.wfFrom_insert {α : Type} [DecidableEq α] (d : Nat → α) (l : Sparse α) (k b : Nat) (v : α)
    (hb : b ≤ k) (hv : v ≠ d k) (hk : ∀ e ∈ l, e.1 ≠ k) (w : Sparse.wfFrom d b l = true) :
    Sparse.wfFrom d b (Sparse.insert l k v) = true := by
  induction l generalizing b with
  | nil => simp [Sparse.insert, Sparse.wfFrom, hb, hv]
  | cons e l ih =>
    obtain ⟨a, x⟩ := e
    simp only [Sparse.wfFrom, Bool.and_eq_true, decide_eq_true_eq] at w
    have ha : a ≠ k := hk (a, x) (by simp)
    simp only [Sparse.insert]
    split
    · simp only [Sparse.wfFrom, Bool.and_eq_true, decide_eq_true_eq]
      exact ⟨⟨hb, hv⟩, ⟨by omega, w.1.2⟩, w.2⟩
    · simp only [Sparse.wfFrom, Bool.and_eq_true, decide_eq_true_eq]
      exact ⟨w.1, ih (a + 1) (by omega) (fun e he => hk e (by simp [he])) w.2⟩

/-- Every write keeps the canonical form. -/
theorem Sparse.wf_set {α : Type} [DecidableEq α] (d : Nat → α) (l : Sparse α) (k : Nat) (v : α)
    (w : Sparse.wf d l = true) : Sparse.wf d (Sparse.set d l k v) = true := by
  unfold Sparse.set
  split
  · exact Sparse.wfFrom_erase d l k 0 w
  · rename_i hv
    exact Sparse.wfFrom_insert d _ k 0 v (by omega) hv (Sparse.erase_keys l k) (Sparse.wfFrom_erase d l k 0 w)

theorem Sparse.wf_putBytes (bs : List Byte) (m : Sparse Byte) (a : Nat) (w : Sparse.wf zeroByte m = true) :
    Sparse.wf zeroByte (Sparse.putBytes m a bs) = true := by
  induction bs generalizing m a with
  | nil => exact w
  | cons b bs ih => exact ih _ _ (Sparse.wf_set _ _ _ _ w)

theorem Sparse.wf_putLe (m : Sparse Byte) (a n v : Nat) (w : Sparse.wf zeroByte m = true) :
    Sparse.wf zeroByte (Sparse.putLe m a n v) = true :=
  Sparse.wf_putBytes _ _ _ w

/-- A byte below the bytes written reads as before. -/
theorem Sparse.get_putBytes_low (bs : List Byte) (m : Sparse Byte) (a j : Nat) (h : j < a) :
    Sparse.get zeroByte (Sparse.putBytes m a bs) j = Sparse.get zeroByte m j := by
  induction bs generalizing m a with
  | nil => rfl
  | cons b bs ih =>
    rw [Sparse.putBytes, ih _ _ (by omega), Sparse.get_set_other _ _ _ _ _ (by omega)]

/-- A byte above the bytes written reads as before. -/
theorem Sparse.get_putBytes_high (bs : List Byte) (m : Sparse Byte) (a j : Nat) (h : a + bs.length ≤ j) :
    Sparse.get zeroByte (Sparse.putBytes m a bs) j = Sparse.get zeroByte m j := by
  induction bs generalizing m a with
  | nil => rfl
  | cons b bs ih =>
    simp only [List.length_cons] at h
    rw [Sparse.putBytes, ih _ _ (by omega), Sparse.get_set_other _ _ _ _ _ (by omega)]

/-- A byte written reads as written. -/
theorem Sparse.get_putBytes (bs : List Byte) (m : Sparse Byte) (a i : Nat) (h : i < bs.length) :
    Sparse.get zeroByte (Sparse.putBytes m a bs) (a + i) = bs[i] := by
  induction bs generalizing m a i with
  | nil => simp at h
  | cons b bs ih =>
    cases i with
    | zero =>
      rw [Sparse.putBytes, Nat.add_zero, Sparse.get_putBytes_low _ _ _ _ (by omega)]; simp
    | succ i =>
      simp only [List.length_cons] at h
      rw [Sparse.putBytes, show a + (i + 1) = a + 1 + i by omega, ih _ _ _ (by omega)]; rfl

/-! ### Register fields -/

theorem setF_lt (w : Word) (f : Field) (v : Nat) (hf : f.lo + f.w ≤ 32) :
    w.toNat % 2 ^ f.lo + v % 2 ^ f.w * 2 ^ f.lo + w.toNat / 2 ^ (f.lo + f.w) * 2 ^ (f.lo + f.w) < 2 ^ 32 := by
  have h1 : w.toNat % 2 ^ f.lo < 2 ^ f.lo := Nat.mod_lt _ (Nat.two_pow_pos _)
  have h2 : v % 2 ^ f.w + 1 ≤ 2 ^ f.w := Nat.mod_lt _ (Nat.two_pow_pos _)
  have h3 : w.toNat / 2 ^ (f.lo + f.w) < 2 ^ (32 - (f.lo + f.w)) := by
    rw [Nat.div_lt_iff_lt_mul (Nat.two_pow_pos _), ← Nat.pow_add,
      show 32 - (f.lo + f.w) + (f.lo + f.w) = 32 by omega]
    exact w.isLt
  have h4 : (v % 2 ^ f.w + 1) * 2 ^ f.lo ≤ 2 ^ (f.lo + f.w) := by
    rw [Nat.add_comm f.lo, Nat.pow_add]; exact Nat.mul_le_mul_right _ h2
  have h5 : (w.toNat / 2 ^ (f.lo + f.w) + 1) * 2 ^ (f.lo + f.w) ≤ 2 ^ 32 := by
    have := Nat.mul_le_mul_right (2 ^ (f.lo + f.w)) (Nat.succ_le_of_lt h3)
    rwa [← Nat.pow_add, show 32 - (f.lo + f.w) + (f.lo + f.w) = 32 by omega] at this
  rw [Nat.add_mul, Nat.one_mul] at h4 h5
  omega

theorem setF_toNat (w : Word) (f : Field) (v : Nat) (hf : f.lo + f.w ≤ 32) :
    (setF w f v).toNat =
      w.toNat % 2 ^ f.lo + v % 2 ^ f.w * 2 ^ f.lo + w.toNat / 2 ^ (f.lo + f.w) * 2 ^ (f.lo + f.w) := by
  rw [setF, BitVec.toNat_ofNat, Nat.mod_eq_of_lt (setF_lt w f v hf)]

theorem setF_div (w : Word) (f : Field) (v : Nat) (hf : f.lo + f.w ≤ 32) :
    (setF w f v).toNat / 2 ^ f.lo = v % 2 ^ f.w + w.toNat / 2 ^ (f.lo + f.w) * 2 ^ f.w := by
  rw [setF_toNat w f v hf, Nat.pow_add 2 f.lo f.w,
    show w.toNat % 2 ^ f.lo + v % 2 ^ f.w * 2 ^ f.lo +
        w.toNat / (2 ^ f.lo * 2 ^ f.w) * (2 ^ f.lo * 2 ^ f.w) =
      w.toNat % 2 ^ f.lo + 2 ^ f.lo * (v % 2 ^ f.w + w.toNat / (2 ^ f.lo * 2 ^ f.w) * 2 ^ f.w) by
    rw [Nat.mul_add, Nat.mul_comm (2 ^ f.lo) (v % 2 ^ f.w), Nat.mul_left_comm (2 ^ f.lo)]; omega,
    Nat.add_mul_div_left _ _ (Nat.two_pow_pos _), Nat.div_eq_of_lt (Nat.mod_lt _ (Nat.two_pow_pos _)), Nat.zero_add]

/-- A field reads as it was set. -/
theorem getF_setF (w : Word) (f : Field) (v : Nat) (hf : f.lo + f.w ≤ 32) :
    getF (setF w f v) f = v % 2 ^ f.w := by
  rw [getF, setF_div w f v hf, Nat.add_mul_mod_self_right, Nat.mod_mod]

/-- A field above the one set reads as before. -/
theorem getF_setF_high (w : Word) (f g : Field) (v : Nat) (hf : f.lo + f.w ≤ 32) (hg : f.lo + f.w ≤ g.lo) :
    getF (setF w f v) g = getF w g := by
  have key : (setF w f v).toNat / 2 ^ (f.lo + f.w) = w.toNat / 2 ^ (f.lo + f.w) := by
    rw [Nat.pow_add, ← Nat.div_div_eq_div_mul, setF_div w f v hf, Nat.add_mul_div_right _ _ (Nat.two_pow_pos _),
      Nat.div_eq_of_lt (Nat.mod_lt _ (Nat.two_pow_pos _)), Nat.zero_add, Nat.pow_add]
  have split : ∀ n : Nat, n / 2 ^ g.lo = n / 2 ^ (f.lo + f.w) / 2 ^ (g.lo - (f.lo + f.w)) := by
    intro n
    rw [Nat.div_div_eq_div_mul, ← Nat.pow_add, show f.lo + f.w + (g.lo - (f.lo + f.w)) = g.lo by omega]
  rw [getF, getF, split, key, ← split]

/-- A field below the one set reads as before. -/
theorem getF_setF_low (w : Word) (f g : Field) (v : Nat) (hf : f.lo + f.w ≤ 32) (hg : g.lo + g.w ≤ f.lo) :
    getF (setF w f v) g = getF w g := by
  have key : (setF w f v).toNat % 2 ^ f.lo = w.toNat % 2 ^ f.lo := by
    rw [setF_toNat w f v hf, Nat.pow_add, Nat.mul_comm (2 ^ f.lo) (2 ^ f.w), ← Nat.mul_assoc,
      Nat.add_mul_mod_self_right, Nat.add_mul_mod_self_right, Nat.mod_mod]
  have cut : ∀ n : Nat, n / 2 ^ g.lo % 2 ^ g.w = n % 2 ^ f.lo / 2 ^ g.lo % 2 ^ g.w := by
    intro n
    rw [show f.lo = g.lo + (f.lo - g.lo) by omega, Nat.pow_add, Nat.mod_mul_right_div_self,
      Nat.mod_mod_of_dvd _ (Nat.pow_dvd_pow 2 (by omega))]
  rw [getF, getF, cut, key, ← cut]

end Sys2Proof.Machine
end

