-- ==== Sys2Proof/Laws/State.lean ====
section
/-!
SUPPORT. What the updates of the state change and leave alone, one small lemma per field and update; reading after
writing registers and counters; and what the shared forms of a command can answer.
-/

namespace Sys2Proof.Machine

open Sys2Proof

/-! ### Register and counter updates, field by field -/

@[simp] theorem Chan.put_cnts (c : Chan) (o : Nat) (w : Word) : (c.put o w).cnts = c.cnts := rfl
@[simp] theorem Chan.put_latch (c : Chan) (o : Nat) (w : Word) : (c.put o w).latch = c.latch := rfl
@[simp] theorem Chan.put_tree (c : Chan) (o : Nat) (w : Word) : (c.put o w).tree = c.tree := rfl
@[simp] theorem Chan.put_ctxm (c : Chan) (o : Nat) (w : Word) : (c.put o w).ctxm = c.ctxm := rfl
@[simp] theorem Chan.put_buf (c : Chan) (o : Nat) (w : Word) : (c.put o w).buf = c.buf := rfl
@[simp] theorem Chan.put_stg (c : Chan) (o : Nat) (w : Word) : (c.put o w).stg = c.stg := rfl
@[simp] theorem Chan.put_stream (c : Chan) (o : Nat) (w : Word) : (c.put o w).stream = c.stream := rfl
@[simp] theorem Chan.put_rings (c : Chan) (o : Nat) (w : Word) : (c.put o w).rings = c.rings := rfl
@[simp] theorem Chan.put_gr (c : Chan) (o : Nat) (w : Word) : (c.put o w).gr = c.gr := rfl
@[simp] theorem Chan.put_badRows (c : Chan) (o : Nat) (w : Word) : (c.put o w).badRows = c.badRows := rfl
@[simp] theorem Chan.put_checks (c : Chan) (o : Nat) (w : Word) : (c.put o w).checks = c.checks := rfl
@[simp] theorem Chan.put_armHeld (c : Chan) (o : Nat) (w : Word) : (c.put o w).armHeld = c.armHeld := rfl
@[simp] theorem Chan.put_ds (c : Chan) (o : Nat) (w : Word) : (c.put o w).ds = c.ds := rfl
@[simp] theorem Chan.put_us (c : Chan) (o : Nat) (w : Word) : (c.put o w).us = c.us := rfl
@[simp] theorem Chan.put_act (c : Chan) (o : Nat) (w : Word) : (c.put o w).act = c.act := rfl
@[simp] theorem Chan.put_tu (c : Chan) (o : Nat) (w : Word) : (c.put o w).tu = c.tu := rfl
@[simp] theorem Chan.put_tsq (c : Chan) (o : Nat) (w : Word) : (c.put o w).tsq = c.tsq := rfl
@[simp] theorem Chan.put_tkey (c : Chan) (o : Nat) (w : Word) : (c.put o w).tkey = c.tkey := rfl
@[simp] theorem Chan.put_lanes (c : Chan) (o : Nat) (w : Word) : (c.put o w).lanes = c.lanes := rfl
@[simp] theorem Chan.put_fpo (c : Chan) (o : Nat) (w : Word) : (c.put o w).fpo = c.fpo := rfl
@[simp] theorem Chan.put_fpWait (c : Chan) (o : Nat) (w : Word) : (c.put o w).fpWait = c.fpWait := rfl
@[simp] theorem Chan.put_disabling (c : Chan) (o : Nat) (w : Word) : (c.put o w).disabling = c.disabling := rfl
@[simp] theorem Chan.put_keys (c : Chan) (o : Nat) (w : Word) : (c.put o w).keys = c.keys := rfl
@[simp] theorem Chan.put_cpReq (c : Chan) (o : Nat) (w : Word) : (c.put o w).cpReq = c.cpReq := rfl
@[simp] theorem Chan.put_ports (c : Chan) (o : Nat) (w : Word) : (c.put o w).ports = c.ports := rfl
@[simp] theorem Chan.put_drill (c : Chan) (o : Nat) (w : Word) : (c.put o w).drill = c.drill := rfl
@[simp] theorem Chan.put_drillQ (c : Chan) (o : Nat) (w : Word) : (c.put o w).drillQ = c.drillQ := rfl
@[simp] theorem Chan.put_pwr (c : Chan) (o : Nat) (w : Word) : (c.put o w).pwr = c.pwr := rfl
@[simp] theorem Chan.put_pm (c : Chan) (o : Nat) (w : Word) : (c.put o w).pm = c.pm := rfl
@[simp] theorem Chan.put_fm (c : Chan) (o : Nat) (w : Word) : (c.put o w).fm = c.fm := rfl
@[simp] theorem Chan.add_regs (c : Chan) (o n : Nat) : (c.add o n).regs = c.regs := rfl
@[simp] theorem Chan.add_latch (c : Chan) (o n : Nat) : (c.add o n).latch = c.latch := rfl
@[simp] theorem Chan.add_tree (c : Chan) (o n : Nat) : (c.add o n).tree = c.tree := rfl
@[simp] theorem Chan.add_ctxm (c : Chan) (o n : Nat) : (c.add o n).ctxm = c.ctxm := rfl
@[simp] theorem Chan.add_buf (c : Chan) (o n : Nat) : (c.add o n).buf = c.buf := rfl
@[simp] theorem Chan.add_stg (c : Chan) (o n : Nat) : (c.add o n).stg = c.stg := rfl
@[simp] theorem Chan.add_stream (c : Chan) (o n : Nat) : (c.add o n).stream = c.stream := rfl
@[simp] theorem Chan.add_rings (c : Chan) (o n : Nat) : (c.add o n).rings = c.rings := rfl
@[simp] theorem Chan.add_gr (c : Chan) (o n : Nat) : (c.add o n).gr = c.gr := rfl
@[simp] theorem Chan.add_badRows (c : Chan) (o n : Nat) : (c.add o n).badRows = c.badRows := rfl
@[simp] theorem Chan.add_checks (c : Chan) (o n : Nat) : (c.add o n).checks = c.checks := rfl
@[simp] theorem Chan.add_armHeld (c : Chan) (o n : Nat) : (c.add o n).armHeld = c.armHeld := rfl
@[simp] theorem Chan.add_ds (c : Chan) (o n : Nat) : (c.add o n).ds = c.ds := rfl
@[simp] theorem Chan.add_us (c : Chan) (o n : Nat) : (c.add o n).us = c.us := rfl
@[simp] theorem Chan.add_act (c : Chan) (o n : Nat) : (c.add o n).act = c.act := rfl
@[simp] theorem Chan.add_tu (c : Chan) (o n : Nat) : (c.add o n).tu = c.tu := rfl
@[simp] theorem Chan.add_tsq (c : Chan) (o n : Nat) : (c.add o n).tsq = c.tsq := rfl
@[simp] theorem Chan.add_tkey (c : Chan) (o n : Nat) : (c.add o n).tkey = c.tkey := rfl
@[simp] theorem Chan.add_lanes (c : Chan) (o n : Nat) : (c.add o n).lanes = c.lanes := rfl
@[simp] theorem Chan.add_fpo (c : Chan) (o n : Nat) : (c.add o n).fpo = c.fpo := rfl
@[simp] theorem Chan.add_fpWait (c : Chan) (o n : Nat) : (c.add o n).fpWait = c.fpWait := rfl
@[simp] theorem Chan.add_disabling (c : Chan) (o n : Nat) : (c.add o n).disabling = c.disabling := rfl
@[simp] theorem Chan.add_keys (c : Chan) (o n : Nat) : (c.add o n).keys = c.keys := rfl
@[simp] theorem Chan.add_cpReq (c : Chan) (o n : Nat) : (c.add o n).cpReq = c.cpReq := rfl
@[simp] theorem Chan.add_ports (c : Chan) (o n : Nat) : (c.add o n).ports = c.ports := rfl
@[simp] theorem Chan.add_drill (c : Chan) (o n : Nat) : (c.add o n).drill = c.drill := rfl
@[simp] theorem Chan.add_drillQ (c : Chan) (o n : Nat) : (c.add o n).drillQ = c.drillQ := rfl
@[simp] theorem Chan.add_pwr (c : Chan) (o n : Nat) : (c.add o n).pwr = c.pwr := rfl
@[simp] theorem Chan.add_pm (c : Chan) (o n : Nat) : (c.add o n).pm = c.pm := rfl
@[simp] theorem Chan.add_fm (c : Chan) (o n : Nat) : (c.add o n).fm = c.fm := rfl

@[simp] theorem Headland.put_cnts (h : Headland) (o : Nat) (w : Word) : (h.put o w).cnts = h.cnts := rfl
@[simp] theorem Headland.put_latch (h : Headland) (o : Nat) (w : Word) : (h.put o w).latch = h.latch := rfl
@[simp] theorem Headland.put_stream (h : Headland) (o : Nat) (w : Word) : (h.put o w).stream = h.stream := rfl
@[simp] theorem Headland.put_turn (h : Headland) (o : Nat) (w : Word) : (h.put o w).turn = h.turn := rfl
@[simp] theorem Headland.put_deferred (h : Headland) (o : Nat) (w : Word) : (h.put o w).deferred = h.deferred := rfl
@[simp] theorem Headland.put_evr (h : Headland) (o : Nat) (w : Word) : (h.put o w).evr = h.evr := rfl
@[simp] theorem Headland.put_stu (h : Headland) (o : Nat) (w : Word) : (h.put o w).stu = h.stu := rfl
@[simp] theorem Headland.put_pps (h : Headland) (o : Nat) (w : Word) : (h.put o w).pps = h.pps := rfl
@[simp] theorem Headland.put_pins (h : Headland) (o : Nat) (w : Word) : (h.put o w).pins = h.pins := rfl
@[simp] theorem Headland.put_core (h : Headland) (o : Nat) (w : Word) : (h.put o w).core = h.core := rfl
@[simp] theorem Headland.put_mb (h : Headland) (o : Nat) (w : Word) : (h.put o w).mb = h.mb := rfl
@[simp] theorem Headland.put_log (h : Headland) (o : Nat) (w : Word) : (h.put o w).log = h.log := rfl
@[simp] theorem Headland.put_fwImage (h : Headland) (o : Nat) (w : Word) : (h.put o w).fwImage = h.fwImage := rfl
@[simp] theorem Headland.put_coreMem (h : Headland) (o : Nat) (w : Word) : (h.put o w).coreMem = h.coreMem := rfl
@[simp] theorem Headland.put_fw (h : Headland) (o : Nat) (w : Word) : (h.put o w).fw = h.fw := rfl
@[simp] theorem Headland.put_mq (h : Headland) (o : Nat) (w : Word) : (h.put o w).mq = h.mq := rfl
@[simp] theorem Headland.put_ident (h : Headland) (o : Nat) (w : Word) : (h.put o w).ident = h.ident := rfl
@[simp] theorem Headland.put_psIdent (h : Headland) (o : Nat) (w : Word) : (h.put o w).psIdent = h.psIdent := rfl
@[simp] theorem Headland.put_keyStore (h : Headland) (o : Nat) (w : Word) : (h.put o w).keyStore = h.keyStore := rfl
@[simp] theorem Headland.put_draws (h : Headland) (o : Nat) (w : Word) : (h.put o w).draws = h.draws := rfl
@[simp] theorem Headland.put_drill (h : Headland) (o : Nat) (w : Word) : (h.put o w).drill = h.drill := rfl
@[simp] theorem Headland.put_drillQ (h : Headland) (o : Nat) (w : Word) : (h.put o w).drillQ = h.drillQ := rfl
@[simp] theorem Headland.put_movers (h : Headland) (o : Nat) (w : Word) : (h.put o w).movers = h.movers := rfl
@[simp] theorem Headland.put_ho (h : Headland) (o : Nat) (w : Word) : (h.put o w).ho = h.ho := rfl
@[simp] theorem Headland.put_testing (h : Headland) (o : Nat) (w : Word) : (h.put o w).testing = h.testing := rfl
@[simp] theorem Headland.put_dvfs (h : Headland) (o : Nat) (w : Word) : (h.put o w).dvfs = h.dvfs := rfl
@[simp] theorem Headland.put_beyond (h : Headland) (o : Nat) (w : Word) : (h.put o w).beyond = h.beyond := rfl
@[simp] theorem Headland.put_within (h : Headland) (o : Nat) (w : Word) : (h.put o w).within = h.within := rfl
@[simp] theorem Headland.put_vHigh (h : Headland) (o : Nat) (w : Word) : (h.put o w).vHigh = h.vHigh := rfl
@[simp] theorem Headland.add_regs (h : Headland) (o n : Nat) : (h.add o n).regs = h.regs := rfl
@[simp] theorem Headland.add_latch (h : Headland) (o n : Nat) : (h.add o n).latch = h.latch := rfl
@[simp] theorem Headland.add_stream (h : Headland) (o n : Nat) : (h.add o n).stream = h.stream := rfl
@[simp] theorem Headland.add_turn (h : Headland) (o n : Nat) : (h.add o n).turn = h.turn := rfl
@[simp] theorem Headland.add_deferred (h : Headland) (o n : Nat) : (h.add o n).deferred = h.deferred := rfl
@[simp] theorem Headland.add_evr (h : Headland) (o n : Nat) : (h.add o n).evr = h.evr := rfl
@[simp] theorem Headland.add_stu (h : Headland) (o n : Nat) : (h.add o n).stu = h.stu := rfl
@[simp] theorem Headland.add_pps (h : Headland) (o n : Nat) : (h.add o n).pps = h.pps := rfl
@[simp] theorem Headland.add_pins (h : Headland) (o n : Nat) : (h.add o n).pins = h.pins := rfl
@[simp] theorem Headland.add_core (h : Headland) (o n : Nat) : (h.add o n).core = h.core := rfl
@[simp] theorem Headland.add_mb (h : Headland) (o n : Nat) : (h.add o n).mb = h.mb := rfl
@[simp] theorem Headland.add_log (h : Headland) (o n : Nat) : (h.add o n).log = h.log := rfl
@[simp] theorem Headland.add_fwImage (h : Headland) (o n : Nat) : (h.add o n).fwImage = h.fwImage := rfl
@[simp] theorem Headland.add_coreMem (h : Headland) (o n : Nat) : (h.add o n).coreMem = h.coreMem := rfl
@[simp] theorem Headland.add_fw (h : Headland) (o n : Nat) : (h.add o n).fw = h.fw := rfl
@[simp] theorem Headland.add_mq (h : Headland) (o n : Nat) : (h.add o n).mq = h.mq := rfl
@[simp] theorem Headland.add_ident (h : Headland) (o n : Nat) : (h.add o n).ident = h.ident := rfl
@[simp] theorem Headland.add_psIdent (h : Headland) (o n : Nat) : (h.add o n).psIdent = h.psIdent := rfl
@[simp] theorem Headland.add_keyStore (h : Headland) (o n : Nat) : (h.add o n).keyStore = h.keyStore := rfl
@[simp] theorem Headland.add_draws (h : Headland) (o n : Nat) : (h.add o n).draws = h.draws := rfl
@[simp] theorem Headland.add_drill (h : Headland) (o n : Nat) : (h.add o n).drill = h.drill := rfl
@[simp] theorem Headland.add_drillQ (h : Headland) (o n : Nat) : (h.add o n).drillQ = h.drillQ := rfl
@[simp] theorem Headland.add_movers (h : Headland) (o n : Nat) : (h.add o n).movers = h.movers := rfl
@[simp] theorem Headland.add_ho (h : Headland) (o n : Nat) : (h.add o n).ho = h.ho := rfl
@[simp] theorem Headland.add_testing (h : Headland) (o n : Nat) : (h.add o n).testing = h.testing := rfl
@[simp] theorem Headland.add_dvfs (h : Headland) (o n : Nat) : (h.add o n).dvfs = h.dvfs := rfl
@[simp] theorem Headland.add_beyond (h : Headland) (o n : Nat) : (h.add o n).beyond = h.beyond := rfl
@[simp] theorem Headland.add_within (h : Headland) (o n : Nat) : (h.add o n).within = h.within := rfl
@[simp] theorem Headland.add_vHigh (h : Headland) (o n : Nat) : (h.add o n).vHigh = h.vHigh := rfl

theorem Chan.setf_eq (c : Chan) (o : Nat) (f : Field) (v : Nat) : c.setf o f v = c.put o (setF (c.get o) f v) := rfl
theorem Headland.setf_eq (h : Headland) (o : Nat) (f : Field) (v : Nat) :
    h.setf o f v = h.put o (setF (h.get o) f v) := rfl
theorem Headland.inc_eq (h : Headland) (o : Nat) : h.inc o = h.add o 1 := rfl
theorem Cx.inc_eq (cx : Cx) (o : Nat) : cx.inc o = cx.add o 1 := rfl
theorem Cx.setf_eq (cx : Cx) (o : Nat) (f : Field) (v : Nat) : cx.setf o f v = cx.put o (setF (cx.get o) f v) := rfl

@[simp] theorem Cx.put_id (cx : Cx) (o : Nat) (w : Word) : (cx.put o w).id = cx.id := rfl
@[simp] theorem Cx.put_hl (cx : Cx) (o : Nat) (w : Word) : (cx.put o w).hl = cx.hl := rfl
@[simp] theorem Cx.put_ch (cx : Cx) (o : Nat) (w : Word) : (cx.put o w).ch = cx.ch.put o w := rfl
@[simp] theorem Cx.setf_id (cx : Cx) (o : Nat) (f : Field) (v : Nat) : (cx.setf o f v).id = cx.id := rfl
@[simp] theorem Cx.setf_hl (cx : Cx) (o : Nat) (f : Field) (v : Nat) : (cx.setf o f v).hl = cx.hl := rfl
@[simp] theorem Cx.setf_ch (cx : Cx) (o : Nat) (f : Field) (v : Nat) : (cx.setf o f v).ch = cx.ch.setf o f v := rfl
@[simp] theorem Cx.add_id (cx : Cx) (o n : Nat) : (cx.add o n).id = cx.id := rfl
@[simp] theorem Cx.add_hl (cx : Cx) (o n : Nat) : (cx.add o n).hl = cx.hl := rfl
@[simp] theorem Cx.add_ch (cx : Cx) (o n : Nat) : (cx.add o n).ch = cx.ch.add o n := rfl
@[simp] theorem Cx.inc_id (cx : Cx) (o : Nat) : (cx.inc o).id = cx.id := rfl
@[simp] theorem Cx.inc_hl (cx : Cx) (o : Nat) : (cx.inc o).hl = cx.hl := rfl
@[simp] theorem Cx.inc_ch (cx : Cx) (o : Nat) : (cx.inc o).ch = cx.ch.add o 1 := rfl
@[simp] theorem Cx.onHl_id (cx : Cx) (f : Headland → Headland) : (cx.onHl f).id = cx.id := rfl
@[simp] theorem Cx.onHl_ch (cx : Cx) (f : Headland → Headland) : (cx.onHl f).ch = cx.ch := rfl
@[simp] theorem Cx.onHl_hl (cx : Cx) (f : Headland → Headland) : (cx.onHl f).hl = f cx.hl := rfl
@[simp] theorem Cx.get_ch (cx : Cx) (o : Nat) : cx.ch.get o = cx.get o := rfl

/-! ### Reading after writing -/

theorem Chan.get_put (c : Chan) (o j : Nat) (w : Word) : (c.put o w).get j = if j = o then w else c.get j :=
  Sparse.get_set _ _ _ _ _
@[simp] theorem Chan.get_put_same (c : Chan) (o : Nat) (w : Word) : (c.put o w).get o = w :=
  Sparse.get_set_same _ _ _ _
@[simp] theorem Chan.get_add (c : Chan) (o n j : Nat) : (c.add o n).get j = c.get j := rfl
@[simp] theorem Chan.cnt_put (c : Chan) (o j : Nat) (w : Word) : (c.put o w).cnt j = c.cnt j := rfl
theorem Chan.cnt_add (c : Chan) (o n j : Nat) :
    (c.add o n).cnt j = if j = o then c.cnt o + BitVec.ofNat 64 n else c.cnt j :=
  Sparse.get_set _ _ _ _ _
@[simp] theorem Chan.cnt_add_same (c : Chan) (o n : Nat) : (c.add o n).cnt o = c.cnt o + BitVec.ofNat 64 n :=
  Sparse.get_set_same _ _ _ _
@[simp] theorem Chan.get_setf_same (c : Chan) (o : Nat) (f : Field) (v : Nat) :
    (c.setf o f v).get o = setF (c.get o) f v := Chan.get_put_same _ _ _
theorem Chan.get_setf (c : Chan) (o j : Nat) (f : Field) (v : Nat) :
    (c.setf o f v).get j = if j = o then setF (c.get o) f v else c.get j := Chan.get_put _ _ _ _
@[simp] theorem Chan.cnt_setf (c : Chan) (o j : Nat) (f : Field) (v : Nat) : (c.setf o f v).cnt j = c.cnt j := rfl

theorem Cx.get_put (cx : Cx) (o j : Nat) (w : Word) : (cx.put o w).get j = if j = o then w else cx.get j :=
  Chan.get_put _ _ _ _
@[simp] theorem Cx.get_put_same (cx : Cx) (o : Nat) (w : Word) : (cx.put o w).get o = w := Chan.get_put_same _ _ _
@[simp] theorem Cx.get_add (cx : Cx) (o n j : Nat) : (cx.add o n).get j = cx.get j := rfl
@[simp] theorem Cx.get_inc (cx : Cx) (o j : Nat) : (cx.inc o).get j = cx.get j := rfl
@[simp] theorem Cx.get_onHl (cx : Cx) (f : Headland → Headland) (j : Nat) : (cx.onHl f).get j = cx.get j := rfl
theorem Cx.get_setf (cx : Cx) (o j : Nat) (f : Field) (v : Nat) :
    (cx.setf o f v).get j = if j = o then setF (cx.get o) f v else cx.get j := Chan.get_put _ _ _ _
@[simp] theorem Cx.get_setf_same (cx : Cx) (o : Nat) (f : Field) (v : Nat) :
    (cx.setf o f v).get o = setF (cx.get o) f v := Chan.get_put_same _ _ _

theorem Headland.get_put (h : Headland) (o j : Nat) (w : Word) : (h.put o w).get j = if j = o then w else h.get j :=
  Sparse.get_set _ _ _ _ _
@[simp] theorem Headland.get_put_same (h : Headland) (o : Nat) (w : Word) : (h.put o w).get o = w :=
  Sparse.get_set_same _ _ _ _
@[simp] theorem Headland.get_add (h : Headland) (o n j : Nat) : (h.add o n).get j = h.get j := rfl
@[simp] theorem Headland.get_inc (h : Headland) (o j : Nat) : (h.inc o).get j = h.get j := rfl
@[simp] theorem Headland.cnt_put (h : Headland) (o j : Nat) (w : Word) : (h.put o w).cnt j = h.cnt j := rfl
theorem Headland.cnt_add (h : Headland) (o n j : Nat) :
    (h.add o n).cnt j = if j = o then h.cnt o + BitVec.ofNat 64 n else h.cnt j :=
  Sparse.get_set _ _ _ _ _
@[simp] theorem Headland.cnt_add_same (h : Headland) (o n : Nat) :
    (h.add o n).cnt o = h.cnt o + BitVec.ofNat 64 n := Sparse.get_set_same _ _ _ _
theorem Headland.get_setf (h : Headland) (o j : Nat) (f : Field) (v : Nat) :
    (h.setf o f v).get j = if j = o then setF (h.get o) f v else h.get j := Headland.get_put _ _ _ _
@[simp] theorem Headland.get_setf_same (h : Headland) (o : Nat) (f : Field) (v : Nat) :
    (h.setf o f v).get o = setF (h.get o) f v := Headland.get_put_same _ _ _
@[simp] theorem Headland.cnt_setf (h : Headland) (o j : Nat) (f : Field) (v : Nat) : (h.setf o f v).cnt j = h.cnt j := rfl

/-! ### Canonical registers and counters -/

theorem Chan.put_canonical (c : Chan) (o : Nat) (w : Word) (h : c.canonical = true) : (c.put o w).canonical = true := by
  simp only [Chan.canonical, Bool.and_eq_true] at h ⊢
  exact ⟨⟨⟨⟨⟨Sparse.wf_set _ _ _ _ h.1.1.1.1.1, h.1.1.1.1.2⟩, h.1.1.1.2⟩, h.1.1.2⟩, h.1.2⟩, h.2⟩

theorem Chan.add_canonical (c : Chan) (o n : Nat) (h : c.canonical = true) : (c.add o n).canonical = true := by
  simp only [Chan.canonical, Bool.and_eq_true] at h ⊢
  exact ⟨⟨⟨⟨⟨h.1.1.1.1.1, Sparse.wf_set _ _ _ _ h.1.1.1.1.2⟩, h.1.1.1.2⟩, h.1.1.2⟩, h.1.2⟩, h.2⟩

theorem Headland.put_canonical (h : Headland) (o : Nat) (w : Word) (hc : h.canonical = true) :
    (h.put o w).canonical = true := by
  simp only [Headland.canonical, Bool.and_eq_true] at hc ⊢
  exact ⟨⟨⟨⟨⟨⟨Sparse.wf_set _ _ _ _ hc.1.1.1.1.1.1, hc.1.1.1.1.1.2⟩, hc.1.1.1.1.2⟩, hc.1.1.1.2⟩, hc.1.1.2⟩, hc.1.2⟩, hc.2⟩

theorem Headland.add_canonical (h : Headland) (o n : Nat) (hc : h.canonical = true) : (h.add o n).canonical = true := by
  simp only [Headland.canonical, Bool.and_eq_true] at hc ⊢
  exact ⟨⟨⟨⟨⟨⟨hc.1.1.1.1.1.1, Sparse.wf_set _ _ _ _ hc.1.1.1.1.1.2⟩, hc.1.1.1.1.2⟩, hc.1.1.1.2⟩, hc.1.1.2⟩, hc.1.2⟩, hc.2⟩

/-! ### Views -/

@[simp] theorem State.view_id (s : State) (c : ChanId) : (s.view c).id = c := rfl
@[simp] theorem State.view_ch (s : State) (c : ChanId) : (s.view c).ch = s.chans[c] := rfl
@[simp] theorem State.view_hl (s : State) (c : ChanId) : (s.view c).hl = s.hl := rfl
@[simp] theorem State.putView_hl (s : State) (c : ChanId) (cx : Cx) : (s.putView c cx).hl = cx.hl := rfl
@[simp] theorem State.putView_pending (s : State) (c : ChanId) (cx : Cx) : (s.putView c cx).pending = s.pending := rfl
theorem State.putView_chans (s : State) (c : ChanId) (cx : Cx) : (s.putView c cx).chans = s.chans.set c cx.ch := rfl

@[simp] theorem State.view_ecc (s : State) (c : ChanId) : (s.view c).ecc = .none := rfl
@[simp] theorem Cx.settled_id (cx : Cx) : cx.settled.id = cx.id := rfl
@[simp] theorem Cx.settled_ch (cx : Cx) : cx.settled.ch = cx.ch := rfl
@[simp] theorem Cx.settled_hl (cx : Cx) : cx.settled.hl = cx.hl := rfl
@[simp] theorem Cx.settled_get (cx : Cx) (o : Nat) : cx.settled.get o = cx.get o := rfl
theorem Cx.settled_of (cx : Cx) (h : cx.ecc = .none) : cx.settled = cx := by cases cx; cases h; rfl

@[simp] theorem State.putView_settled (s : State) (c : ChanId) (cx : Cx) : s.putView c cx.settled = s.putView c cx := rfl

/-- A channel's view after it is put back. -/
theorem State.view_putView (s : State) (c : ChanId) (cx : Cx) (h : cx.id = c) : (s.putView c cx).view c = cx.settled := by
  subst h; cases cx; simp [State.view, State.putView, Cx.settled]

/-- Every other channel is as it was (R32). -/
theorem State.putView_other (s : State) (c d : ChanId) (cx : Cx) (h : d ≠ c) : (s.putView c cx).chans[d] = s.chans[d] := by
  have hn : c.val ≠ d.val := fun e => h (Fin.ext e.symm)
  simp [State.putView, hn]

theorem State.putView_putView (s : State) (c : ChanId) (a b : Cx) : (s.putView c a).putView c b = s.putView c b := by
  simp [State.putView]

@[simp] theorem State.putView_self (s : State) (c : ChanId) : s.putView c (s.view c) = s := by
  simp [State.putView, State.view]

/-- A view put back, changed, changes that channel only. -/
theorem State.putView_view (s : State) (c : ChanId) (f : Cx → Cx) (h : (f (s.view c)).id = c) :
    (s.modChan c f).view c = (f (s.view c)).settled := State.view_putView _ _ _ h

theorem State.modChan_eq (s : State) (c : ChanId) (f : Cx → Cx) (h : (f (s.view c)).id = c) :
    s.modChan c f = s.putView c ((s.modChan c f).view c) := by
  rw [State.putView_view _ _ _ h]; rfl

/-! ### The shared forms of a command -/

theorem State.alive_up (s : State) (f : State → State) (h : s.up) : s.alive f = .next (f s) := by
  have h : s.hl.pins.resetHeld = false := h
  simp [State.alive, h]

theorem State.access_listens (s : State) (f : State → State) (h : s.listens) : s.access f = .next (f s) := by
  have h1 : s.hl.pins.resetHeld = false := h.1
  simp [State.access, h1, h.2]

theorem State.onChan_ready (s : State) (c : ChanId) (f : Cx → Cx) (h : s.ready c) :
    s.onChan c f = .next (s.putView c (f (s.view c))) := by
  have h1 : s.hl.pins.resetHeld = false := h.1
  have h2 : s.hl.resetRuns c.val = false := h.2
  simp [State.onChan, State.alive, h1, h2, State.modChan]

theorem State.coreWrite_takes (s : State) (c : ChanId) (f : Cx → Cx) (h : s.takes c) :
    s.coreWrite c f = .next (s.putView c (f (s.view c))) := by
  have h1 : s.hl.pins.resetHeld = false := h.1.1
  have h2 : s.hl.resetRuns c.val = false := h.2.1
  have h3 : (s.view c).ch.coreStopped = false := h.2.2.1
  have h4 : (s.view c).mode ≠ ModeCode.halted := h.2.2.2
  simp [State.coreWrite, State.access, h1, h.1.2, h2, State.modChan, Cx.coreWrite, h3, h4, -State.view_ch]

/-- A write of the core island in whose reads of the cell table the ECC finds `ecc`. -/
theorem State.coreWriteEcc_takes (s : State) (c : ReadBy) (f : Cx → Cx) (h : s.takes c.chan) :
    s.coreWriteEcc c f = .next (s.putView c.chan (f { s.view c.chan with ecc := c.ecc })) :=
  State.coreWrite_takes s c.chan _ h

theorem State.aonWrite_listens (s : State) (c : ChanId) (f : Cx → Cx) (h : s.listens)
    (h2 : s.hl.resetRuns c = false) (m : s.chans[c].mode ≠ ModeCode.halted) :
    s.aonWrite c f = .next (s.putView c (f (s.view c))) := by
  have h1 : s.hl.pins.resetHeld = false := h.1
  have h4 : (s.view c).mode ≠ ModeCode.halted := m
  simp [State.aonWrite, State.access, h1, h.2, h2, State.modChan, Cx.aonWrite, h4]

/-- A command in whose reads of the cell table the ECC finds `ecc`. -/
theorem State.onChanEcc_ready (s : State) (c : ChanId) (ecc : EccFault) (f : Cx → Cx) (h : s.ready c) :
    s.onChanEcc c ecc f = .next (s.putView c (f { s.view c with ecc := ecc })) := State.onChan_ready s c _ h

theorem State.onHl_up (s : State) (f : Headland → Headland) (h : s.up) : s.onHl f = .next { s with hl := f s.hl } :=
  State.alive_up s _ h

theorem State.hlWrite_listens (s : State) (f : Headland → Headland) (h : s.listens) :
    s.hlWrite f = .next { s with hl := f s.hl } :=
  State.access_listens s _ h

/-- A command of a channel completes when its operation keeps the channel's number and gives what is claimed. -/
theorem completes_onChan {i : Instr} {s : State} {c : ChanId} {f : Cx → Cx} {P : Cx → Cx → Prop}
    (hr : s.ready c) (he : exec i s = s.onChan c f) (hid : (f (s.view c)).id = c)
    (hP : P (s.view c) (f (s.view c)).settled) : completes i s c P := by
  refine ⟨s.putView c (f (s.view c)), by rw [he, State.onChan_ready s c f hr], ?_, ?_⟩
  · rw [State.view_putView _ _ _ hid, State.putView_settled]
  · rwa [State.view_putView _ _ _ hid]

theorem completes_coreWrite {i : Instr} {s : State} {c : ChanId} {f : Cx → Cx} {P : Cx → Cx → Prop}
    (hr : s.takes c) (he : exec i s = s.coreWrite c f) (hid : (f (s.view c)).id = c)
    (hP : P (s.view c) (f (s.view c)).settled) : completes i s c P := by
  refine ⟨s.putView c (f (s.view c)), by rw [he, State.coreWrite_takes s c f hr], ?_, ?_⟩
  · rw [State.view_putView _ _ _ hid, State.putView_settled]
  · rwa [State.view_putView _ _ _ hid]

theorem completes_aonWrite {i : Instr} {s : State} {c : ChanId} {f : Cx → Cx} {P : Cx → Cx → Prop}
    (hl : s.listens) (hr : s.hl.resetRuns c = false) (hm : s.chans[c].mode ≠ ModeCode.halted)
    (he : exec i s = s.aonWrite c f) (hid : (f (s.view c)).id = c) (hP : P (s.view c) (f (s.view c)).settled) : completes i s c P := by
  refine ⟨s.putView c (f (s.view c)), by rw [he, State.aonWrite_listens s c f hl hr hm], ?_, ?_⟩
  · rw [State.view_putView _ _ _ hid, State.putView_settled]
  · rwa [State.view_putView _ _ _ hid]

theorem completesHl_onHl {i : Instr} {s : State} {f : Headland → Headland} {P : Headland → Headland → Prop}
    (hu : s.up) (he : exec i s = s.onHl f) (hP : P s.hl (f s.hl)) : completesHl i s P :=
  ⟨_, by rw [he, State.onHl_up s f hu], rfl, hP⟩

theorem completesHl_hlWrite {i : Instr} {s : State} {f : Headland → Headland} {P : Headland → Headland → Prop}
    (hu : s.listens) (he : exec i s = s.hlWrite f) (hP : P s.hl (f s.hl)) : completesHl i s P :=
  ⟨_, by rw [he, State.hlWrite_listens s f hu], rfl, hP⟩

/-- A command of a channel that completes with a change of its view. -/
theorem completes_modChan {i : Instr} {s : State} {c : ChanId} {f : Cx → Cx} {P : Cx → Cx → Prop}
    (he : exec i s = .next (s.modChan c f)) (hid : (f (s.view c)).id = c) (hP : P (s.view c) (f (s.view c)).settled) :
    completes i s c P :=
  ⟨_, he, State.modChan_eq _ _ _ hid, by rwa [State.putView_view _ _ _ hid]⟩

/-- A command that completes with a change of the Headland. -/
theorem completesHl_next {i : Instr} {s : State} {h : Headland} {P : Headland → Headland → Prop}
    (he : exec i s = .next { s with hl := h }) (hP : P s.hl h) : completesHl i s P :=
  ⟨_, he, rfl, hP⟩

theorem completes_access {i : Instr} {s : State} {c : ChanId} {f : State → State} (g : Cx → Cx) {P : Cx → Cx → Prop}
    (hu : s.listens) (he : exec i s = s.access f) (hf : f s = s.modChan c g) (hid : (g (s.view c)).id = c)
    (hP : P (s.view c) (g (s.view c)).settled) : completes i s c P :=
  completes_modChan (by rw [he, State.access_listens s f hu, hf]) hid hP

theorem completes_alive {i : Instr} {s : State} {c : ChanId} {f : State → State} (g : Cx → Cx) {P : Cx → Cx → Prop}
    (hu : s.up) (he : exec i s = s.alive f) (hf : f s = s.modChan c g) (hid : (g (s.view c)).id = c)
    (hP : P (s.view c) (g (s.view c)).settled) : completes i s c P :=
  completes_modChan (by rw [he, State.alive_up s f hu, hf]) hid hP

theorem completesHl_access {i : Instr} {s : State} {f : State → State} {h : Headland} {P : Headland → Headland → Prop}
    (hu : s.listens) (he : exec i s = s.access f) (hf : f s = { s with hl := h }) (hP : P s.hl h) : completesHl i s P :=
  completesHl_next (by rw [he, State.access_listens s f hu, hf]) hP

theorem completesHl_alive {i : Instr} {s : State} {f : State → State} {h : Headland} {P : Headland → Headland → Prop}
    (hu : s.up) (he : exec i s = s.alive f) (hf : f s = { s with hl := h }) (hP : P s.hl h) : completesHl i s P :=
  completesHl_next (by rw [he, State.alive_up s f hu, hf]) hP

@[simp] theorem Cx.put_ecc (cx : Cx) (o : Nat) (w : Word) : (cx.put o w).ecc = cx.ecc := rfl
@[simp] theorem Cx.add_ecc (cx : Cx) (o n : Nat) : (cx.add o n).ecc = cx.ecc := rfl
@[simp] theorem Cx.inc_ecc (cx : Cx) (o : Nat) : (cx.inc o).ecc = cx.ecc := rfl
@[simp] theorem Cx.setf_ecc (cx : Cx) (o : Nat) (f : Field) (v : Nat) : (cx.setf o f v).ecc = cx.ecc := rfl
@[simp] theorem Cx.onHl_ecc (cx : Cx) (f : Headland → Headland) : (cx.onHl f).ecc = cx.ecc := rfl

theorem Cx.only_put {cx : Cx} {o : Nat} {w : Word} : Cx.only cx (cx.put o w) [o] [] :=
  ⟨rfl, fun j hj => by rw [Cx.get_put, if_neg (by simpa using hj)], fun _ _ => rfl⟩

theorem Cx.only_inc {cx : Cx} {o : Nat} : Cx.only cx (cx.inc o) [] [o] :=
  ⟨rfl, fun _ _ => rfl, fun j hj => by
    show Chan.cnt (Chan.add _ _ _) _ = _
    rw [Chan.cnt_add, if_neg (by simpa using hj)]⟩

theorem Cx.only_refl (cx : Cx) (rs cs : List Nat) : Cx.only cx cx rs cs := ⟨rfl, fun _ _ => rfl, fun _ _ => rfl⟩

theorem Cx.only_trans {a b d : Cx} {r1 r2 c1 c2 : List Nat} (h1 : Cx.only a b r1 c1) (h2 : Cx.only b d r2 c2) :
    Cx.only a d (r1 ++ r2) (c1 ++ c2) := by
  obtain ⟨e1, g1, n1⟩ := h1
  obtain ⟨e2, g2, n2⟩ := h2
  refine ⟨?_, fun o ho => ?_, fun o ho => ?_⟩
  · rw [e2, e1]
  · simp only [List.mem_append, not_or] at ho
    rw [g2 o ho.2, g1 o ho.1]
  · simp only [List.mem_append, not_or] at ho
    rw [n2 o ho.2, n1 o ho.1]

theorem Cx.only_mono {a b : Cx} {r r' c c' : List Nat} (h : Cx.only a b r c) (hr : ∀ o ∈ r, o ∈ r') (hc : ∀ o ∈ c, o ∈ c') :
    Cx.only a b r' c' :=
  ⟨h.1, fun o ho => h.2.1 o fun m => ho (hr o m), fun o ho => h.2.2 o fun m => ho (hc o m)⟩

theorem Headland.only_put {h : Headland} {o : Nat} {w : Word} : Headland.only h (h.put o w) [o] [] :=
  ⟨rfl, fun j hj => by rw [Headland.get_put, if_neg (by simpa using hj)], fun _ _ => rfl⟩

theorem Headland.only_add {h : Headland} {o n : Nat} : Headland.only h (h.add o n) [] [o] :=
  ⟨rfl, fun _ _ => rfl, fun j hj => by rw [Headland.cnt_add, if_neg (by simpa using hj)]⟩

theorem Headland.only_refl (h : Headland) (rs cs : List Nat) : Headland.only h h rs cs :=
  ⟨rfl, fun _ _ => rfl, fun _ _ => rfl⟩

theorem Headland.only_trans {a b d : Headland} {r1 r2 c1 c2 : List Nat} (h1 : Headland.only a b r1 c1)
    (h2 : Headland.only b d r2 c2) : Headland.only a d (r1 ++ r2) (c1 ++ c2) := by
  obtain ⟨e1, g1, n1⟩ := h1
  obtain ⟨e2, g2, n2⟩ := h2
  refine ⟨?_, fun o ho => ?_, fun o ho => ?_⟩
  · rw [e2, e1]
  · simp only [List.mem_append, not_or] at ho
    rw [g2 o ho.2, g1 o ho.1]
  · simp only [List.mem_append, not_or] at ho
    rw [n2 o ho.2, n1 o ho.1]

theorem Headland.only_mono {a b : Headland} {r r' c c' : List Nat} (h : Headland.only a b r c) (hr : ∀ o ∈ r, o ∈ r')
    (hc : ∀ o ∈ c, o ∈ c') : Headland.only a b r' c' :=
  ⟨h.1, fun o ho => h.2.1 o fun m => ho (hr o m), fun o ho => h.2.2 o fun m => ho (hc o m)⟩

/-! ### Updates of typed fields: what one changes is its body; the channel number, the Headland, the error in hand and the
registers stay -/

@[simp] theorem Cx.setActAux_id (cx : Cx) (a : ActAux) : (cx.setActAux a).id = cx.id := rfl
@[simp] theorem Cx.setActAux_hl (cx : Cx) (a : ActAux) : (cx.setActAux a).hl = cx.hl := rfl
@[simp] theorem Cx.setActAux_ecc (cx : Cx) (a : ActAux) : (cx.setActAux a).ecc = cx.ecc := rfl
@[simp] theorem Cx.setActAux_get (cx : Cx) (a : ActAux) (o : Nat) : (cx.setActAux a).get o = cx.get o := rfl
@[simp] theorem Cx.setActAux_cnts (cx : Cx) (a : ActAux) : (cx.setActAux a).ch.cnts = cx.ch.cnts := rfl
@[simp] theorem Cx.setRings_id (cx : Cx) (r : Rings) : (cx.setRings r).id = cx.id := rfl
@[simp] theorem Cx.setRings_hl (cx : Cx) (r : Rings) : (cx.setRings r).hl = cx.hl := rfl
@[simp] theorem Cx.setRings_ecc (cx : Cx) (r : Rings) : (cx.setRings r).ecc = cx.ecc := rfl
@[simp] theorem Cx.setRings_get (cx : Cx) (r : Rings) (o : Nat) : (cx.setRings r).get o = cx.get o := rfl
@[simp] theorem Cx.setRings_cnts (cx : Cx) (r : Rings) : (cx.setRings r).ch.cnts = cx.ch.cnts := rfl
@[simp] theorem Cx.setRxq_id (cx : Cx) (q : Nat) (x : RxQ) : (cx.setRxq q x).id = cx.id := rfl
@[simp] theorem Cx.setRxq_hl (cx : Cx) (q : Nat) (x : RxQ) : (cx.setRxq q x).hl = cx.hl := rfl
@[simp] theorem Cx.setRxq_ecc (cx : Cx) (q : Nat) (x : RxQ) : (cx.setRxq q x).ecc = cx.ecc := rfl
@[simp] theorem Cx.setRxq_get (cx : Cx) (q : Nat) (x : RxQ) (o : Nat) : (cx.setRxq q x).get o = cx.get o := rfl
@[simp] theorem Cx.setRxq_cnts (cx : Cx) (q : Nat) (x : RxQ) : (cx.setRxq q x).ch.cnts = cx.ch.cnts := rfl
@[simp] theorem Cx.setTxq_id (cx : Cx) (q : Nat) (x : TxQ) : (cx.setTxq q x).id = cx.id := rfl
@[simp] theorem Cx.setTxq_hl (cx : Cx) (q : Nat) (x : TxQ) : (cx.setTxq q x).hl = cx.hl := rfl
@[simp] theorem Cx.setTxq_ecc (cx : Cx) (q : Nat) (x : TxQ) : (cx.setTxq q x).ecc = cx.ecc := rfl
@[simp] theorem Cx.setTxq_get (cx : Cx) (q : Nat) (x : TxQ) (o : Nat) : (cx.setTxq q x).get o = cx.get o := rfl
@[simp] theorem Cx.setTxq_cnts (cx : Cx) (q : Nat) (x : TxQ) : (cx.setTxq q x).ch.cnts = cx.ch.cnts := rfl
@[simp] theorem Cx.setDs_id (cx : Cx) (d : Ds) : (cx.setDs d).id = cx.id := rfl
@[simp] theorem Cx.setDs_hl (cx : Cx) (d : Ds) : (cx.setDs d).hl = cx.hl := rfl
@[simp] theorem Cx.setDs_ecc (cx : Cx) (d : Ds) : (cx.setDs d).ecc = cx.ecc := rfl
@[simp] theorem Cx.setDs_get (cx : Cx) (d : Ds) (o : Nat) : (cx.setDs d).get o = cx.get o := rfl
@[simp] theorem Cx.setDs_cnts (cx : Cx) (d : Ds) : (cx.setDs d).ch.cnts = cx.ch.cnts := rfl
@[simp] theorem Cx.setEntry_id (cx : Cx) (c : Nat) (e : Option Entry) : (cx.setEntry c e).id = cx.id := rfl
@[simp] theorem Cx.setEntry_hl (cx : Cx) (c : Nat) (e : Option Entry) : (cx.setEntry c e).hl = cx.hl := rfl
@[simp] theorem Cx.setEntry_ecc (cx : Cx) (c : Nat) (e : Option Entry) : (cx.setEntry c e).ecc = cx.ecc := rfl
@[simp] theorem Cx.setEntry_get (cx : Cx) (c : Nat) (e : Option Entry) (o : Nat) :
    (cx.setEntry c e).get o = cx.get o := rfl
@[simp] theorem Cx.setEntry_cnts (cx : Cx) (c : Nat) (e : Option Entry) :
    (cx.setEntry c e).ch.cnts = cx.ch.cnts := rfl
@[simp] theorem Cx.setDrillQ_id (cx : Cx) (l : List Nat) : (cx.setDrillQ l).id = cx.id := rfl
@[simp] theorem Cx.setDrillQ_hl (cx : Cx) (l : List Nat) : (cx.setDrillQ l).hl = cx.hl := rfl
@[simp] theorem Cx.setDrillQ_ecc (cx : Cx) (l : List Nat) : (cx.setDrillQ l).ecc = cx.ecc := rfl
@[simp] theorem Cx.setDrillQ_get (cx : Cx) (l : List Nat) (o : Nat) : (cx.setDrillQ l).get o = cx.get o := rfl
@[simp] theorem Cx.setDrillQ_cnts (cx : Cx) (l : List Nat) : (cx.setDrillQ l).ch.cnts = cx.ch.cnts := rfl
@[simp] theorem Cx.setFpWait_id (cx : Cx) (b : Bool) : (cx.setFpWait b).id = cx.id := rfl
@[simp] theorem Cx.setFpWait_hl (cx : Cx) (b : Bool) : (cx.setFpWait b).hl = cx.hl := rfl
@[simp] theorem Cx.setFpWait_ecc (cx : Cx) (b : Bool) : (cx.setFpWait b).ecc = cx.ecc := rfl
@[simp] theorem Cx.setFpWait_get (cx : Cx) (b : Bool) (o : Nat) : (cx.setFpWait b).get o = cx.get o := rfl
@[simp] theorem Cx.setFpWait_cnts (cx : Cx) (b : Bool) : (cx.setFpWait b).ch.cnts = cx.ch.cnts := rfl
@[simp] theorem Cx.setRing_id (cx : Cx) (l : List Nat) : (cx.setRing l).id = cx.id := rfl
@[simp] theorem Cx.setRing_hl (cx : Cx) (l : List Nat) : (cx.setRing l).hl = cx.hl := rfl
@[simp] theorem Cx.setRing_ecc (cx : Cx) (l : List Nat) : (cx.setRing l).ecc = cx.ecc := rfl
@[simp] theorem Cx.setRing_get (cx : Cx) (l : List Nat) (o : Nat) : (cx.setRing l).get o = cx.get o := rfl
@[simp] theorem Cx.setRing_cnts (cx : Cx) (l : List Nat) : (cx.setRing l).ch.cnts = cx.ch.cnts := rfl
@[simp] theorem Cx.setLane_id (cx : Cx) (n : Nat) (l : List FpDeliv) : (cx.setLane n l).id = cx.id := rfl
@[simp] theorem Cx.setLane_hl (cx : Cx) (n : Nat) (l : List FpDeliv) : (cx.setLane n l).hl = cx.hl := rfl
@[simp] theorem Cx.setLane_ecc (cx : Cx) (n : Nat) (l : List FpDeliv) : (cx.setLane n l).ecc = cx.ecc := rfl
@[simp] theorem Cx.setLane_get (cx : Cx) (n : Nat) (l : List FpDeliv) (o : Nat) :
    (cx.setLane n l).get o = cx.get o := rfl
@[simp] theorem Cx.setLane_cnts (cx : Cx) (n : Nat) (l : List FpDeliv) : (cx.setLane n l).ch.cnts = cx.ch.cnts := rfl
@[simp] theorem Cx.setBursts_id (cx : Cx) (l : List Burst) : (cx.setBursts l).id = cx.id := rfl
@[simp] theorem Cx.setBursts_hl (cx : Cx) (l : List Burst) : (cx.setBursts l).hl = cx.hl := rfl
@[simp] theorem Cx.setBursts_ecc (cx : Cx) (l : List Burst) : (cx.setBursts l).ecc = cx.ecc := rfl
@[simp] theorem Cx.setBursts_get (cx : Cx) (l : List Burst) (o : Nat) : (cx.setBursts l).get o = cx.get o := rfl
@[simp] theorem Cx.setBursts_cnts (cx : Cx) (l : List Burst) : (cx.setBursts l).ch.cnts = cx.ch.cnts := rfl
@[simp] theorem Cx.setTxEn_id (cx : Cx) (b : Bool) : (cx.setTxEn b).id = cx.id := rfl
@[simp] theorem Cx.setTxEn_hl (cx : Cx) (b : Bool) : (cx.setTxEn b).hl = cx.hl := rfl
@[simp] theorem Cx.setTxEn_ecc (cx : Cx) (b : Bool) : (cx.setTxEn b).ecc = cx.ecc := rfl
@[simp] theorem Cx.setTxEn_get (cx : Cx) (b : Bool) (o : Nat) : (cx.setTxEn b).get o = cx.get o := rfl
@[simp] theorem Cx.setTxEn_cnts (cx : Cx) (b : Bool) : (cx.setTxEn b).ch.cnts = cx.ch.cnts := rfl
@[simp] theorem Cx.setTrip_id (cx : Cx) (b : Bool) : (cx.setTrip b).id = cx.id := rfl
@[simp] theorem Cx.setTrip_hl (cx : Cx) (b : Bool) : (cx.setTrip b).hl = cx.hl := rfl
@[simp] theorem Cx.setTrip_ecc (cx : Cx) (b : Bool) : (cx.setTrip b).ecc = cx.ecc := rfl
@[simp] theorem Cx.setTrip_get (cx : Cx) (b : Bool) (o : Nat) : (cx.setTrip b).get o = cx.get o := rfl
@[simp] theorem Cx.setTrip_cnts (cx : Cx) (b : Bool) : (cx.setTrip b).ch.cnts = cx.ch.cnts := rfl
@[simp] theorem Cx.setDeficit_id (cx : Cx) (q n : Nat) : (cx.setDeficit q n).id = cx.id := rfl
@[simp] theorem Cx.setDeficit_hl (cx : Cx) (q n : Nat) : (cx.setDeficit q n).hl = cx.hl := rfl
@[simp] theorem Cx.setDeficit_ecc (cx : Cx) (q n : Nat) : (cx.setDeficit q n).ecc = cx.ecc := rfl
@[simp] theorem Cx.setDeficit_get (cx : Cx) (q n : Nat) (o : Nat) : (cx.setDeficit q n).get o = cx.get o := rfl
@[simp] theorem Cx.setDeficit_cnts (cx : Cx) (q n : Nat) : (cx.setDeficit q n).ch.cnts = cx.ch.cnts := rfl
@[simp] theorem Cx.setCur_id (cx : Cx) (s q : Nat) : (cx.setCur s q).id = cx.id := rfl
@[simp] theorem Cx.setCur_hl (cx : Cx) (s q : Nat) : (cx.setCur s q).hl = cx.hl := rfl
@[simp] theorem Cx.setCur_ecc (cx : Cx) (s q : Nat) : (cx.setCur s q).ecc = cx.ecc := rfl
@[simp] theorem Cx.setCur_get (cx : Cx) (s q : Nat) (o : Nat) : (cx.setCur s q).get o = cx.get o := rfl
@[simp] theorem Cx.setCur_cnts (cx : Cx) (s q : Nat) : (cx.setCur s q).ch.cnts = cx.ch.cnts := rfl
@[simp] theorem Cx.setPm_id (cx : Cx) (p : Pm) : (cx.setPm p).id = cx.id := rfl
@[simp] theorem Cx.setPm_hl (cx : Cx) (p : Pm) : (cx.setPm p).hl = cx.hl := rfl
@[simp] theorem Cx.setPm_ecc (cx : Cx) (p : Pm) : (cx.setPm p).ecc = cx.ecc := rfl
@[simp] theorem Cx.setPm_get (cx : Cx) (p : Pm) (o : Nat) : (cx.setPm p).get o = cx.get o := rfl
@[simp] theorem Cx.setPm_cnts (cx : Cx) (p : Pm) : (cx.setPm p).ch.cnts = cx.ch.cnts := rfl
@[simp] theorem Cx.setTu_id (cx : Cx) (t : Tu) : (cx.setTu t).id = cx.id := rfl
@[simp] theorem Cx.setTu_hl (cx : Cx) (t : Tu) : (cx.setTu t).hl = cx.hl := rfl
@[simp] theorem Cx.setTu_ecc (cx : Cx) (t : Tu) : (cx.setTu t).ecc = cx.ecc := rfl
@[simp] theorem Cx.setTu_get (cx : Cx) (t : Tu) (o : Nat) : (cx.setTu t).get o = cx.get o := rfl
@[simp] theorem Cx.setTu_cnts (cx : Cx) (t : Tu) : (cx.setTu t).ch.cnts = cx.ch.cnts := rfl
@[simp] theorem Cx.setPwr_id (cx : Cx) (p : Pwr) : (cx.setPwr p).id = cx.id := rfl
@[simp] theorem Cx.setPwr_hl (cx : Cx) (p : Pwr) : (cx.setPwr p).hl = cx.hl := rfl
@[simp] theorem Cx.setPwr_ecc (cx : Cx) (p : Pwr) : (cx.setPwr p).ecc = cx.ecc := rfl
@[simp] theorem Cx.setPwr_get (cx : Cx) (p : Pwr) (o : Nat) : (cx.setPwr p).get o = cx.get o := rfl
@[simp] theorem Cx.setPwr_cnts (cx : Cx) (p : Pwr) : (cx.setPwr p).ch.cnts = cx.ch.cnts := rfl
@[simp] theorem Headland.setFw_get (h : Headland) (f : Firmware) (o : Nat) : (h.setFw f).get o = h.get o := rfl
@[simp] theorem Headland.setFw_cnts (h : Headland) (f : Firmware) : (h.setFw f).cnts = h.cnts := rfl
@[simp] theorem Headland.setMb_get (h : Headland) (m : Mailbox) (o : Nat) : (h.setMb m).get o = h.get o := rfl
@[simp] theorem Headland.setMb_cnts (h : Headland) (m : Mailbox) : (h.setMb m).cnts = h.cnts := rfl
@[simp] theorem Headland.setStu_get (h : Headland) (t : Stu) (o : Nat) : (h.setStu t).get o = h.get o := rfl
@[simp] theorem Headland.setStu_cnts (h : Headland) (t : Stu) : (h.setStu t).cnts = h.cnts := rfl
@[simp] theorem Headland.setMv_get (h : Headland) (n : Nat) (m : Mover) (o : Nat) :
    (h.setMv n m).get o = h.get o := rfl
@[simp] theorem Headland.setMv_cnts (h : Headland) (n : Nat) (m : Mover) : (h.setMv n m).cnts = h.cnts := rfl
@[simp] theorem Headland.setEvrAux_get (h : Headland) (n : Nat) (a : EvrAux) (o : Nat) :
    (h.setEvrAux n a).get o = h.get o := rfl
@[simp] theorem Headland.setEvrAux_cnts (h : Headland) (n : Nat) (a : EvrAux) : (h.setEvrAux n a).cnts = h.cnts := rfl

end Sys2Proof.Machine
end

