-- ==== Sys2Proof/Tests/Slice0.lean ====
section
/-!
SUPPORT. Tests: for each statement, small states and operands that meet the hypotheses of each of its clauses, with
what one step makes of them; the register and size limits at their boundaries; and an ill-formed term for each check of
WellFormed. Expected values are the spec's, by the rules that the statement cites.
-/

namespace Sys2Proof.Tests

open Sys2Proof Sys2Proof.Machine

set_option Elab.async false

/-- The state with channel `c` changed. -/
def chan (c : ChanId) (f : Cx → Cx) (s : State) : State := s.putView c (f (s.view c))

/-- The state with the Headland changed. -/
def head (f : Headland → Headland) (s : State) : State := { s with hl := f s.hl }

/-- A fresh device whose firmware runs. -/
def up : State := head (fun h => h.setFwState FwState.running) State.reset

/-- With channel 0 in a mode. -/
def inMode (m : Nat) : State := chan 0 (fun cx => cx.setMode m) up

/-- What `exec` answers, looked at. -/
def after (i : Instr) (s : State) (p : State → Bool) : Bool :=
  match exec i s with
  | .next t => p t
  | _ => false

/-- The state that a command leaves. -/
def ran (i : Instr) (s : State) : State :=
  match exec i s with
  | .next t => t
  | _ => s

/-- What `exec` makes of channel 0 and the Headland. -/
def on0 (i : Instr) (s : State) (p : Cx → Cx → Bool) : Bool :=
  after i s fun t => p (s.view 0) (t.view 0)

/-- What `exec` makes of the Headland. -/
def onH (i : Instr) (s : State) (p : Headland → Headland → Bool) : Bool :=
  after i s fun t => p s.hl t.hl

/-! ### Target accesses -/

theorem test_unaligned : State.reset.up ∧ alignedTo (0x1003 : BitVec 21).toNat false = false ∧
    alignedTo (0x1004 : BitVec 21).toNat true = false ∧
    onH (.unalignedTargetAccess 0x1003 false none) State.reset (fun h h' =>
      h'.cnt Cnt.HL_CNT_HP_TGT_BAD == h.cnt Cnt.HL_CNT_HP_TGT_BAD + 1 && h'.pins.rsp == some (0, true)) = true ∧
    onH (.registerWrite 0x1004 true 5) State.reset (fun h h' => h'.regs == h.regs && h'.pins.rsp == some (0, true)) = true := by
  decide +kernel

/-- A channel whose core clock is stopped. -/
def stopped : State :=
  chan 0 (fun cx => let cx := cx.setMode ModeCode.stop
                    (cx.setPwr { cx.ch.pwr with clkOff := true }).setf Reg.CH_PWR_STATUS F.CH_PWR_STATUS_PHASE Phase.stopped) up

theorem test_stopped_access : stopped.ready 0 ∧ stopped.chans[(0 : ChanId)].coreStopped = true ∧
    alignedTo (0x3000 : BitVec 16).toNat false = true ∧
    on0 (.stoppedAccess 0 0x3000 false none) stopped (fun cx cx' => cx'.ch.regs == cx.ch.regs &&
      cx'.ch.cnt Cnt.CH_CNT_PWR_STOPPED_ACCESS == 1 && cx'.hl.pins.rsp == some (0, false)) = true ∧
    on0 (.stoppedAccess 0 0xBFFC false (some 7)) stopped (fun cx cx' => cx'.ch.regs == cx.ch.regs &&
      cx'.ch.cnt Cnt.CH_CNT_PWR_STOPPED_ACCESS == 1 && cx'.hl == cx.hl) = true := by decide +kernel

theorem test_access_timeout :
    let s := head (fun h => (h.setf Reg.HL_FM_WEDGE_CFG F.HL_FM_WEDGE_CFG_EN 1).setf (Reg.HL_EVSRC Ev.accessTimeout)
      F.HL_EVSRC_EN 1) up
    s.up ∧ onH (.accessTimeout 3 true true) s (fun h h' => h'.pins.rsp == some (BitVec.allOnes 64, true) &&
      h'.flg (Reg.HL_EVSRC Ev.accessTimeout) F.HL_EVSRC_PENDING && h'.flg Reg.HL_FM_WEDGED ⟨3, 1⟩ &&
      h.flg Reg.HL_FM_WEDGED ⟨3, 1⟩ == false) = true := by decide +kernel

theorem test_register_write :
    let a : BitVec 21 := BitVec.ofNat 21 (0x40000 + Reg.CH_RXQ_HOLD)
    (inMode ModeCode.service).takes 0 ∧ a.toNat = 0x40000 + 0x10000 * (0 : ChanId).val + Reg.CH_RXQ_HOLD ∧
    chOwnRule (Reg.CH_RXQ_HOLD) = false ∧
    on0 (.registerWrite a false 77) (inMode ModeCode.service) (fun _ cx' =>
      cx'.fld (Reg.CH_RXQ_HOLD) F.CH_RXQ_HOLD_HOLD_US == 77) = true := by decide +kernel

theorem test_counter_latch :
    let s := chan 0 (fun cx => cx.add Cnt.CH_CNT_DS_LF_RX 0x500000007) up
    let lo := Cnt.CH_CNT_DS_LF_RX
    s.ready 0 ∧ s.chans[(0 : ChanId)].coreStopped = false ∧ counterAt chCounters lo = some lo ∧
    (BitVec.ofNat 21 (0x40000 + lo)).toNat = 0x40000 + lo ∧
    on0 (.counterLowRead (BitVec.ofNat 21 (0x40000 + lo))) s (fun _ cx' => cx'.hl.pins.rsp == some (7, false) &&
      Sparse.get noLatch cx'.ch.latch lo == some 5) = true ∧
    on0 (.counterLowRead (BitVec.ofNat 21 (0x40000 + lo + 4))) s (fun cx cx' => cx'.hl.pins.rsp == some (5, false) &&
      cx'.ch == cx.ch) = true := by decide +kernel

/-! ### Modes, resets and the start of the firmware -/

theorem test_enable : up.takes 0 ∧ up.chans[(0 : ChanId)].flg Reg.CH_MODE_CTL F.CH_MODE_CTL_ENABLE = false ∧
    up.chans[(0 : ChanId)].flg Reg.CH_MODE F.CH_MODE_FALLOW = false ∧ up.hl.fwState = FwState.running ∧
    up.chans[(0 : ChanId)].mode = ModeCode.disabled := by decide +kernel

theorem test_enable_fallow : up.takes 16 ∧ up.chans[(16 : ChanId)].flg Reg.CH_MODE F.CH_MODE_FALLOW = true ∧
    up.chans[(16 : ChanId)].flg Reg.CH_MODE_CTL F.CH_MODE_CTL_ENABLE = false ∧ up.hl.fwState = FwState.running ∧
    after (.enable 16 true) up (fun t => t.chans[(16 : ChanId)].mode == ModeCode.disabled &&
      t.chans[(16 : ChanId)].flg Reg.CH_MODE_CTL F.CH_MODE_CTL_ENABLE == false &&
      t.chans[(16 : ChanId)].flg Reg.CH_MODE_CTL F.CH_MODE_CTL_FAST_OK) = true := by decide +kernel

/-- A fresh device whose configuration event of channel 16 is routed. -/
def routed : State := head (fun h => h.setf (Reg.HL_EVSRC (24 * 16 + Ev.config)) F.HL_EVSRC_EN 1) State.reset

theorem test_enable_without_firmware : routed.takes 16 ∧ routed.hl.fwState = FwState.bootRom ∧
    routed.chans[(16 : ChanId)].flg Reg.CH_MODE_CTL F.CH_MODE_CTL_ENABLE = false ∧
    routed.chans[(16 : ChanId)].stream.closed = false ∧ routed.hl.fatal = false ∧
    after (.enable 16 true) routed (fun t => t.hl.flg (Reg.HL_EVSRC (24 * 16 + Ev.config)) F.HL_EVSRC_PENDING &&
      t.chans[(16 : ChanId)].flg Reg.CH_MODE_CTL F.CH_MODE_CTL_ENABLE == false) = true := by decide +kernel

/-- Channel 0 in Service as the host enabled it. -/
def enabled : State := chan 0 (fun cx => cx.setf Reg.CH_MODE_CTL F.CH_MODE_CTL_ENABLE 1) (inMode ModeCode.service)

theorem test_orderly_disable : enabled.takes 0 ∧ enabled.chans[(0 : ChanId)].mode = ModeCode.service ∧
    enabled.chans[(0 : ChanId)].disabling = false ∧
    enabled.chans[(0 : ChanId)].flg Reg.CH_MODE_CTL F.CH_MODE_CTL_ENABLE = true := by decide +kernel

/-- Channel 0 in Acquire, in an orderly disable. -/
def disabling : State := chan 0 (fun cx => { cx with ch := { cx.ch with disabling := true } }) (inMode ModeCode.acquire)

theorem test_disable_complete :
    let s := disabling
    s.ready 0 ∧ s.chans[(0 : ChanId)].coreStopped = false ∧ s.chans[(0 : ChanId)].mode = ModeCode.acquire ∧
    s.chans[(0 : ChanId)].disabling = true ∧ s.chans[(0 : ChanId)].ds.cipherQ = [] ∧
    s.chans[(0 : ChanId)].us.bursts = [] ∧ s.chans[(0 : ChanId)].ds.entry = [] := by
  decide +kernel

theorem test_ch_reset :
    (inMode ModeCode.halted).listens ∧ (inMode ModeCode.halted).hl.resetRuns (0 : ChanId) = false ∧
    (inMode ModeCode.halted).chans[(0 : ChanId)].coreStopped = false ∧ (inMode ModeCode.halted).hl.ho = none ∧
    getF 0x5A170001 F.CH_RESET_GUARD = 0x5A17 ∧ getF 0x5A160001 F.CH_RESET_GUARD ≠ 0x5A17 ∧
    on0 (.chResetGo 0 0x5A170001) (inMode ModeCode.service) (fun _ cx' => cx'.hl.resetRuns 0 &&
      cx'.ch.stream.closed && cx'.get Reg.CH_LANE == 0) = true ∧
    on0 (.chResetGo 0 0x5A160001) (inMode ModeCode.service) (fun cx cx' =>
      cx' == cx.inc Cnt.CH_CNT_RESET_REFUSED) = true := by decide +kernel

theorem test_rst_chan : (inMode ModeCode.service).listens ∧ (inMode ModeCode.service).hl.ho = none ∧
    after (.hlRstChanReq 0x10001) (inMode ModeCode.service) (fun t => t.hl.resetRuns 0 && t.hl.resetRuns 16 &&
      !t.hl.resetRuns 1 && t.chans[(1 : ChanId)] == State.reset.chans[(1 : ChanId)]) = true := by decide +kernel

/-- Channel 0 in Halted, with its reset running. -/
def resetting : State := chan 0 (fun cx => ((cx.setMode ModeCode.halted).inc Cnt.CH_CNT_DS_LF_RX).onHl fun h =>
  h.setf Reg.HL_RST_CHAN_LO ⟨0, 1⟩ 1) up

theorem test_channel_reset_done : resetting.up ∧ resetting.hl.resetRuns (0 : ChanId) = true := by decide +kernel

theorem test_device_reset : up.listens ∧ up.hl.pins.resetAt = none ∧ getF 0x5A170001 F.HL_RST_DEVICE_GUARD = 0x5A17 ∧
    getF 0x5A160001 F.HL_RST_DEVICE_GUARD ≠ 0x5A17 ∧
    onH (.hlRstDeviceGo 0x5A170001) up (fun _ h' => h'.pins.resetAt == some 1000) = true ∧
    onH (.hlRstDeviceGo 0x5A160001) up (fun h h' => h' == h.inc Cnt.HL_CNT_RESET_REFUSED) = true ∧
    onH .rstNAssert up (fun _ h' => h'.pins.resetHeld && h'.pins.rstN) = true ∧
    onH (.testEnChange true) up (fun _ h' => h'.pins.testEn) = true ∧
    (let s := head (fun h => { h with pins := { h.pins with testEn := true }, stream := { h.stream with items := [.vector 3] } }) up
     s.up ∧ onH (.testEnChange false) s (fun _ h' => !h'.pins.testEn && h'.stream.items.isEmpty) = true) := by decide +kernel

theorem test_device_reset_done :
    let s := head (fun h => { h with pins := { h.pins with resetHeld := true } }) (inMode ModeCode.service)
    s.hl.pins.resetHeld = true ∧ after .deviceResetDone s (fun t => t.chans == State.reset.chans &&
      t.hl.get Reg.HL_RST_STATUS == 2 && t.hl.pins.resetHeld == false) = true := by decide +kernel

theorem test_heartbeat : up.ready 0 ∧ up.chans[(0 : ChanId)].coreStopped = false ∧
    on0 (.heartbeat 0) (chan 0 (fun cx => cx.setf Reg.CH_MODE F.CH_MODE_HEARTBEAT 255) up) (fun _ cx' =>
      cx'.fld Reg.CH_MODE F.CH_MODE_HEARTBEAT == 0 && cx'.fld Reg.CH_MODE F.CH_MODE_MODE == ModeCode.disabled) = true := by
  decide +kernel

theorem test_wedge :
    let s := head (fun h => let h := h.put Reg.HL_FM_WEDGE_CFG 0; { (h.setf Reg.HL_FM_WEDGE_CFG F.HL_FM_WEDGE_CFG_EN 1).setf
      Reg.HL_FM_WEDGE_CFG F.HL_FM_WEDGE_CFG_TIMEOUT_US 200 with stu := { h.stu with tick := 200000 } }) enabled
    s.ready 0 ∧ s.chans[(0 : ChanId)].coreStopped = false ∧ s.hl.flg Reg.HL_FM_WEDGE_CFG F.HL_FM_WEDGE_CFG_EN = true ∧
    s.hl.fwUp = true ∧ s.chans[(0 : ChanId)].mode ≠ ModeCode.stop ∧ s.chans[(0 : ChanId)].mode ≠ ModeCode.disabled ∧
    1000 * s.hl.fld Reg.HL_FM_WEDGE_CFG F.HL_FM_WEDGE_CFG_TIMEOUT_US ≤
      (s.hl.stu.tick - s.chans[(0 : ChanId)].fm.beatAt).toNat ∧
    s.hl.flg Reg.HL_FM_WEDGED ⟨(0 : ChanId).val, 1⟩ = false ∧
    on0 (.wedgeDetect 0) s (fun cx cx' => cx'.ch == cx.ch && cx'.hl.flg Reg.HL_FM_WEDGED ⟨0, 1⟩ &&
      cx'.hl.cnt Cnt.HL_CNT_FM_WEDGES == 1) = true := by decide +kernel

/-- A persist device with one valid image in slot B, which is accepted. -/
def dev : BootDev := ⟨⟨false, 0, 0, 0, 0⟩, ⟨true, 5, 0x01000002, 1, 2⟩, true, 5, [7, 8], 3⟩

theorem test_fw_boot : State.reset.up ∧ State.reset.hl.fwState = FwState.bootRom ∧ State.reset.hl.fw.started = false ∧
    (if dev.accepted then dev.slotB else dev.slotA).valid = true ∧
    dev.counter.toNat ≤ (if dev.accepted then dev.slotB else dev.slotA).svn.toNat ∧
    (∀ c : ChanId, (State.reset.view c).actState = Act.off) ∧
    onH (.fwBoot (some ⟨⟨false, 0, 0, 0, 0⟩, ⟨false, 0, 0, 0, 0⟩, false, 0, [9], 1⟩)) State.reset (fun h h' =>
      h'.fwState == FwState.noImage && h'.mb == h.mb && h'.ageRefs == [9] && h'.cnt Cnt.HL_CNT_PS_ERR == 1) = true := by decide +kernel

/-! ### Downstream -/

theorem test_ds_cfg : up.takes 0 ∧ up.chans[(0 : ChanId)].mode = ModeCode.disabled ∧ enabled.takes 0 ∧
    enabled.chans[(0 : ChanId)].mode ≠ ModeCode.disabled ∧ enabled.chans[(0 : ChanId)].mode ≠ ModeCode.handover ∧
    on0 (.dsCfgWrite 0 4) up (fun _ cx' => cx'.fld Reg.CH_DS_CFG F.CH_DS_CFG_MODE == 4) = true ∧
    on0 (.dsCfgWrite 0 4) enabled (fun cx cx' => cx'.ch.regs == cx.ch.regs) = true ∧
    on0 (.parseCfgWrite 0 2 7) up (fun cx cx' => cx'.get (Reg.CH_PARSE_CFG + 8) ==
      mergeWrite chRows (Reg.CH_PARSE_CFG + 8) (cx.get (Reg.CH_PARSE_CFG + 8)) 7) = true ∧
    on0 (.parseCfgWrite 0 0 7) enabled (fun cx cx' => cx'.ch.regs == cx.ch.regs) = true := by decide +kernel

theorem test_slot_registers :
    up.takes 0 ∧ slotOfReg (0x3400 : BitVec 16).toNat = some 0 ∧ slotOfReg (0x3100 : BitVec 16).toNat = some 0 ∧
    keyProfileReg (0x3400 : BitVec 16).toNat = true ∧ treeSelReg (0x3100 : BitVec 16).toNat = true ∧
    (up.view 0).slotOpen 0 = true ∧
    on0 (.keyProfileWrite 0 0x3400 5) up (fun cx cx' => cx'.get 0x3400 == mergeWrite chRows 0x3400 (cx.get 0x3400) 5) = true ∧
    (let s := chan 0 (fun cx => cx.setSlot 0 SlotState.current) up
     s.takes 0 ∧ (s.view 0).slotOpen 0 = false ∧
     on0 (.keyProfileWrite 0 0x3400 5) s (fun cx cx' => cx'.get 0x3400 == cx.get 0x3400) = true ∧
     on0 (.treeSelWrite 0 0x3100 5) s (fun cx cx' => cx'.get 0x3100 == cx.get 0x3100) = true) := by decide +kernel

/-- Channel 0 in Acquire, receiving EXT_100. -/
def ext : State := chan 0 (fun cx => (cx.setf Reg.CH_DS_CFG F.CH_DS_CFG_MODE DsMode.ext100).setMode ModeCode.acquire) up

/-- A line frame whose header the next marker cuts. -/
def cutLine : LineIn := ⟨9, 15000, true, false, none, .ok, [], [], []⟩

theorem test_line_frame : ext.ready 0 ∧ (ext.view 0).lineOn = true ∧ ext.chans[(0 : ChanId)].ds.cur = none ∧
    ext.chans[(0 : ChanId)].disabling = false ∧ ext.chans[(0 : ChanId)].mode ≠ ModeCode.handover ∧
    (ext.view 0).dsMode ≠ DsMode.none ∧ ext.chans[(0 : ChanId)].pm.held = none ∧ cutLine.sync = true ∧ cutLine.header = none ∧
    on0 (.lineFrameStart 0 cutLine) ext (fun _ cx' => cx'.guard == Guard.confirm && cx'.ch.cnt Cnt.CH_CNT_DS_LF_RX == 1 &&
      cx'.ch.ds.cur.isSome) = true := by decide +kernel

/-- Channel 0 in Service with the guard in ACCEPT and a line frame open. -/
def accepting : State :=
  chan 0 (fun cx => let cx := (cx.setf Reg.CH_DS_CFG F.CH_DS_CFG_MODE DsMode.g9807).setMode ModeCode.service
                    (cx.setf Reg.CH_DS_STATUS F.CH_DS_STATUS_GUARD Guard.accept).setDs
                      { cx.ch.ds with cur := some ⟨5, DsMode.g9807, 0, 15000, 1000, true, true, true, false, []⟩ }) up

theorem test_sync_loss : accepting.ready 0 ∧ (accepting.view 0).lineOn = true ∧
    on0 (.framerSyncLoss ⟨0, false⟩) accepting (fun _ cx' => cx'.guard == Guard.nosync &&
      cx'.ch.cnt Cnt.CH_CNT_DS_SYNC_LOSS == 1) = true ∧
    on0 (.framerSyncLoss ⟨0, true⟩) accepting (fun _ cx' => cx'.guard == Guard.accept &&
      cx'.flg Reg.CH_DS_STATUS F.CH_DS_STATUS_FRAMER_SYNC) = true := by decide +kernel

/-- A line frame in G.9807 with superframe counter `n` and a header with `k` structures. -/
def whole (n k : Nat) (hec : Hec) (map : List MapEntry) : LineIn :=
  ⟨BitVec.ofNat 51 n, 15000, true, false, some (BitVec.ofNat 64 (k * 2 ^ 53)), hec, map, [], []⟩

/-- `accepting` with the guard in CONFIRM, after a base and `n` line frames that followed it. -/
def confirming (base : Bool) (n : Nat) : State :=
  chan 0 (fun cx => ((cx.setf Reg.CH_DS_STATUS F.CH_DS_STATUS_GUARD Guard.confirm).setBase base).setf Reg.CH_DS_STATUS
    F.CH_DS_STATUS_COUNT n) accepting

theorem test_guard_confirms :
    (accepting.view 0).lineOn = true ∧ (confirming true 1).ready 0 ∧ ((confirming true 1).view 0).guard = Guard.confirm ∧
    ((confirming true 1).view 0).base = true ∧ ((confirming false 0).view 0).base = false ∧
    (confirming false 0).chans[(0 : ChanId)].ds.seed = none ∧
    (confirming true 1).chans[(0 : ChanId)].pm.held = none ∧ (confirming true 1).chans[(0 : ChanId)].disabling = false ∧
    ((confirming true 1).chans[(0 : ChanId)].ds.cur.map fun l => (l.sfc, l.evald)) = some (5, true) ∧
    headerPasses (whole 6 0 .ok []) DsMode.g9807 0 = true ∧ headerPasses (whole 6 0 .uncorr []) DsMode.g9807 0 = false ∧
    ((confirming true 1).view 0).dsMode = DsMode.g9807 ∧
    ((confirming true 1).view 0).fld Reg.CH_DS_SYNC F.CH_DS_SYNC_CONFIRM = 2 ∧
    on0 (.lineFrameStart 0 (whole 6 0 .ok [])) (confirming true 1) (fun _ cx' => cx'.guard == Guard.accept &&
      cx'.get Reg.CH_DS_SFC_LO == 6 && cx'.ch.cnt Cnt.CH_CNT_DS_LF_ACCEPTED == 1) = true ∧
    on0 (.lineFrameStart 0 (whole 6 0 .ok [])) (confirming true 0) (fun _ cx' => cx'.guard == Guard.confirm &&
      cx'.fld Reg.CH_DS_STATUS F.CH_DS_STATUS_COUNT == 1 && cx'.ch.cnt Cnt.CH_CNT_DS_LF_DISCARDED == 1) = true ∧
    on0 (.lineFrameStart 0 (whole 7 0 .ok [])) (confirming true 1) (fun _ cx' => cx'.guard == Guard.confirm && cx'.base &&
      cx'.ch.cnt Cnt.CH_CNT_DS_FALSE_LOCK_REJECT == 1) = true ∧
    on0 (.lineFrameStart 0 (whole 6 0 .ok [])) (confirming false 0) (fun _ cx' => cx'.base &&
      cx'.ch.cnt Cnt.CH_CNT_DS_FALSE_LOCK_REJECT == 0) = true := by decide +kernel

/-- `accepting` in OPERATION, with allocation 9 in slot 3 and profile 0 valid. -/
def operating : State :=
  chan 0 (fun cx => (((((cx.setf Reg.CH_ACT_STATUS F.CH_ACT_STATUS_STATE Act.operation).setf (Reg.CH_US_SLOT 3)
    F.CH_US_SLOT_VALID 1).setf (Reg.CH_US_SLOT 3) F.CH_US_SLOT_ALLOC_ID 9).setf (Reg.CH_US_PROFILE 0)
    F.CH_US_PROFILE_VALID 1).put Reg.CH_US_BIT 102400).put Reg.CH_US_RSP 100) accepting

/-- A grant of 50 units at unit 30000 to allocation 9. -/
def mapEntry : MapEntry := ⟨BitVec.ofNat 128 (9 * 2 ^ 50 + 30000 * 2 ^ 32 + 50 * 2 ^ 16), .ok⟩

theorem test_accepted_frames :
    operating.ready 0 ∧ (operating.view 0).guard = Guard.accept ∧ (operating.view 0).phase = Phase.run ∧
    (operating.view 0).flg Reg.CH_PWR_STATUS F.CH_PWR_STATUS_PAD_HELD = false ∧
    operating.chans[(0 : ChanId)].mode = ModeCode.service ∧ operating.chans[(0 : ChanId)].coreStopped = false ∧
    (operating.view 0).actState = Act.operation ∧ (operating.view 0).slotOfAlloc 9 = some 3 ∧ alloc8 (mapEntry.raw.toNat % 2 ^ 64) =
      ⟨9, false, false, false, 0, 30000, 50⟩ ∧ headerPasses (whole 6 1 .ok [mapEntry]) DsMode.g9807 (BitVec.ofNat 64 (2 ^ 53)) = true ∧
    (readHeader DsMode.g9807 15000 (BitVec.ofNat 64 (2 ^ 53)) .ok).maps = 1 ∧
    (operating.view 0).flg (Reg.CH_US_PROFILE 0) F.CH_US_PROFILE_VALID = true ∧ (operating.view 0).grantCap 0 200 = 200 ∧
    grantFits 4 false true true ⟨some 3, false, false, 0, 30000, 50, 200, false, 9⟩ = true ∧
    (let m := (operating.view 0).latchMarker
     m.nowQ + (m.horizon DsMode.g9807 : Int) ≤
      m.tUp (operating.view 0).time8.toNat + (30000 * (32 * m.bitQ) : Nat) - m.fixedQ Reg.CH_TS_US_FIXED) ∧
    on0 (.lineFrameStart 0 (whole 6 1 .ok [mapEntry])) operating (fun _ cx' =>
      match cx'.ch.us.bursts with
      | [b] => cx'.ch.cnt Cnt.CH_CNT_US_GRANTS == 1 && b.grants == [⟨some 3, false, false, 0, 30000, 50, 200, false, 9⟩]
      | _ => false) = true ∧
    on0 (.lineFrameStart 0 (whole 8 0 .ok [])) accepting (fun _ cx' => cx'.guard == Guard.confirm && cx'.base &&
      cx'.ch.cnt Cnt.CH_CNT_DS_SFC_DISCONT == 1) = true ∧
    on0 (.lineFrameStart 0 (whole 6 0 .uncorr [])) accepting (fun _ cx' => cx'.guard == Guard.accept &&
      cx'.ch.cnt Cnt.CH_CNT_DS_HDR_ERR == 1) = true ∧
    on0 (.lineFrameStart 0 (whole 6 0 .ok [])) accepting (fun _ cx' => cx'.guard == Guard.accept &&
      cx'.ch.cnt Cnt.CH_CNT_DS_LF_ACCEPTED == 1) = true := by decide +kernel

/-- An envelope header of port `p`, `n` payload bytes and key slot `k`. -/
def envHdr (n k p : Nat) : DWord := BitVec.ofNat 64 (n * 2 ^ 50 + k * 2 ^ 48 + p * 2 ^ 32)

/-- `accepting` with port 7 bound to context 3, whose key set has a valid key in slot 1. -/
def keyed : State := chan 0 (fun cx => { (cx.bind 7 (some 3)) with ch := { (cx.bind 7 (some 3)).ch with keys := [1 * 0 + keyIndex 0 1] } }) accepting

theorem test_envelopes : accepting.ready 0 ∧ (accepting.view 0).running = true ∧ (accepting.view 0).subStopped 6 = false ∧
    (∃ lf, accepting.chans[(0 : ChanId)].ds.cur = some lf ∧ lf.open_ = true ∧ lf.flaggedAt lf.pos 8 = false ∧
      lf.mode ≠ DsMode.ext100 ∧ lf.pos + 8 + 40 + padLen lf.mode 40 ≤ lf.len) ∧
    nbits (envHdr 40 0 0xFFFF).toNat 47 32 = 0xFFFF ∧ nbits (envHdr 40 1 7).toNat 47 32 = 7 ∧
    (accepting.view 0).portCtx 7 = none ∧ (keyed.view 0).portCtx 7 = some 3 ∧
    nbits (envHdr 4 1 7).toNat 63 50 = 4 ∧ nbits (envHdr 4 1 7).toNat 49 48 = 1 ∧
    (keyed.view 0).keyValid (nbits ((keyed.view 0).ctxLe 3 0 8) 15 8) 1 = true ∧
    on0 (.envelopeRx 0 (envHdr 40 0 0xFFFF) .ok 0 [] .none) accepting (fun _ cx' =>
      cx'.ch.cnt Cnt.CH_CNT_DS_ENV_IDLE == 1) = true ∧
    on0 (.envelopeRx 0 (envHdr 40 1 7) .ok 0 [] .none) accepting (fun _ cx' =>
      cx'.ch.cnt Cnt.CH_CNT_DS_ENV_OTHER == 1 && cx'.ch.cnt Cnt.CH_CNT_DS_ENV_RX == 1) = true ∧
    on0 (.envelopeRx 0 (envHdr 4 1 7) .ok 0 [1, 2, 3, 4] .none) keyed (fun _ cx' =>
      match cx'.ch.ds.cipherQ with
      | [i] => i.port == 7 && i.ctx == 3 && i.key == 1 && i.seedA == 5 && i.payload == [1, 2, 3, 4] && !i.last
      | _ => false) = true ∧
    (accepting.view 0).filtering = false ∧ (keyed.view 0).filtering = false ∧ keyed.hl.pins.testEn = false ∧
    keyed.chans[(0 : ChanId)].badRows = [] ∧ keyed.chans[(0 : ChanId)].ds.cipherQ = [] := by decide +kernel

/-- A first envelope of context 3 has been stored, and a second waits for the cipher engine. -/
def twoFragments : State :=
  ran (.envelopeRx 0 (envHdr 4 1 7) .ok 0 [9, 8, 7, 6] .none)
    (ran (.cipherReturn 0 5 0xFC [1, 2, 3, 4] false 0 .none) (ran (.envelopeRx 0 (envHdr 4 1 7) .ok 0 [1, 2, 3, 4] .none) keyed))

theorem test_cipher_return : ∃ i, twoFragments.chans[(0 : ChanId)].ds.cipherQ = [i] ∧ twoFragments.ready 0 ∧
    (twoFragments.view 0).finishing = true ∧ i.seedA = 5 ∧ i.seedB = 0xFF ∧ i.ctx = 3 ∧ i.last = false ∧
    i.payload.length = 4 ∧ (twoFragments.view 0).partEpoch i.ctx = i.epoch ∧ i.key = 1 := by
  refine ⟨⟨true, false, 7, 3, 0, 1, false, [9, 8, 7, 6], 5, 0xFF, 0, 0x1d70⟩, ?_⟩; decide +kernel

/-- The cipher engine is to return the second envelope of `s`. -/
def item (s : State) : CipherItem := s.chans[(0 : ChanId)].ds.cipherQ.headD ⟨true, false, 0, 0, 0, 0, false, [], 0, 0, 0, 0⟩

theorem test_appends : twoFragments.appends 0 (item twoFragments) [4, 3, 2, 1] ∧ (item twoFragments).last = false ∧
    on0 (.cipherReturn 0 5 0xFF [4, 3, 2, 1] false 0 .none) twoFragments (fun _ cx' => cx'.partLen 3 == 8 &&
      Sparse.bytes cx'.ch.buf 0 8 == [1, 2, 3, 4, 4, 3, 2, 1]) = true := by decide +kernel

/-- A frame, with its FCS, stored up to byte 12 while `s` held, the rest of it at the cipher engine. -/
def closing (bs : List Byte) (s : State) : State :=
  let bs := padFcs bs
  let s := ran (.envelopeRx 0 (envHdr 12 1 7) .ok 0 (bs.take 12) .none) s
  let s := ran (.cipherReturn 0 5 0xFC (bs.take 12) false 0 .none) s
  ran (.envelopeRx 0 (envHdr (bs.length - 12) 1 7 + 0x2000) .ok 0 (bs.drop 12) .none) s

/-- A frame with the type `t`, and what follows it. -/
def frameOf (t : Nat) (bs : List Byte) : List Byte := [2, 0, 0, 0, 0, 1, 2, 0, 0, 0, 0, 2] ++ beBytes 2 t ++ bs

/-- Frames that are malformed are dropped. -/
def malDrop : State := chan 0 (fun cx => cx.setf Reg.CH_PARSE_MALFORMED F.CH_PARSE_MALFORMED_DS_ACTION 0) keyed

/-- Slot 0 is CURRENT, and every one of its trees has rule 5 for root, which forwards to receive queue 2. -/
def ruled : State :=
  chan 0 (fun cx =>
    let cx := (cx.setSlot 0 SlotState.current).setf Reg.CH_SHEAF_STATUS F.CH_SHEAF_STATUS_CUR_VALID 1
    let cx := (List.range 8).foldl (fun cx t => ((cx.setf (Reg.CH_TREE_ROOT 0 t) F.CH_TREE_ROOT_VALID 1).setf
      (Reg.CH_TREE_ROOT 0 t) F.CH_TREE_ROOT_ROOT_IS_RULE 1).setf (Reg.CH_TREE_ROOT 0 t) F.CH_TREE_ROOT_ROOT 5) cx
    let cx := { cx with ch := { cx.ch with ctxm := Sparse.putBytes (Sparse.putBytes cx.ch.ctxm (ruleAddr 5)
      [1, 8, 0, 0, 0, 0, 0, 0, 0x10, 0, 0, 0, 0x34, 0x12, 0, 0]) (ctxAddr 3) [1] } }
    (cx.setf (qCtl false 2) F.CH_RXQ_CTL_EN 1).setRxq 2 ⟨[], [], [⟨⟨9, 64, false, true, 0, 0, 0, 0, 0, 0⟩, 0, 0, false, false, false⟩], true, []⟩)
    keyed

/-- The entry of the frame that `s` closes. -/
def entryOf (s : State) : Entry := ((Sparse.get (fun _ => none) s.chans[(0 : ChanId)].ds.entry 3).getD ⟨none, 0, 0, 0, none⟩)

/-- The envelope that closes a frame, for `full` stored as `s` has it: what `closes` asks beside `appends`. -/
def closesOf (full : List Byte) (s : State) : Bool :=
  decide ((item s).last = true ∧ (s.view 0).partWhole (item s).ctx) &&
    decide (Sparse.get (fun _ => none) s.chans[(0 : ChanId)].ds.entry (item s).ctx = some (entryOf s) ∧
      (entryOf s).seen = none ∧ full = (s.view 0).frameBytes (nbits ((s.view 0).partW (item s).ctx) 13 0)
        ((s.view 0).partLen (item s).ctx) ++ full.drop 12)

/-- A frame closes in `s`. -/
def closes (bs : List Byte) (s : State) (p : Cx → Cx → Prop) [∀ x y, Decidable (p x y)] : Bool :=
  on0 (.cipherReturn 0 (item s).seedA (item s).seedB ((padFcs bs).drop 12) false 0 .none) s fun cx cx' => decide (p cx cx')

theorem test_closing : (∀ s ∈ [closing (frameOf 0x88B5 []) keyed, closing (frameOf 0x800 [0x41]) malDrop,
    closing (frameOf 0x88B5 []) ruled], s.appends 0 (item s) (List.replicate 52 1)) := by decide +kernel

theorem test_closed_drop :
    let s := closing (frameOf 0x88B5 []) keyed
    let m := closing (frameOf 0x800 [0x41]) malDrop
    let full := padFcs (frameOf 0x88B5 [])
    closesOf full s = true ∧ Cx.goodFrame full (entryOf s) (s.view 0) ∧ ((s.view 0).parsed (padFcs (frameOf 0x88B5 []))).cause = 0 ∧
    ((s.view 0).parsed (padFcs (frameOf 0x88B5 []))).frag = false ∧
    ((s.view 0).decides (padFcs (frameOf 0x88B5 [])) (entryOf s)).walk = .noTree ∧
    closesOf (padFcs (frameOf 0x800 [0x41])) m = true ∧ Cx.goodFrame (padFcs (frameOf 0x800 [0x41])) (entryOf m) (m.view 0) ∧ ((m.view 0).parsed (padFcs (frameOf 0x800 [0x41]))).cause = 2 ∧
    (m.view 0).malAction false = 0 ∧
    closes (frameOf 0x88B5 []) s (fun _ cx' => cx'.partial_ 3 = false ∧ cx'.ch.cnt Cnt.CH_CNT_CLS_NO_TREE = 1) = true ∧
    closes (frameOf 0x800 [0x41]) m (fun _ cx' => cx'.ch.cnt Cnt.CH_CNT_PARSE_DS_BAD_HLEN = 1 ∧
      cx'.ch.cnt Cnt.CH_CNT_DS_FRAMES_OK = 1) = true := by decide +kernel

theorem test_closed_bad :
    let s := closing (frameOf 0x88B5 []) keyed
    let bad := (padFcs (frameOf 0x88B5 [])).take 12 ++ List.replicate 52 1
    closesOf bad s = true ∧ fcsOk bad = false ∧
    (s.view 0).flg Reg.CH_RX_CFG F.CH_RX_CFG_KEEP_BAD = false ∧
    on0 (.cipherReturn 0 5 (item s).seedB (bad.drop 12) false 0 .none) s (fun _ cx' => !cx'.partial_ 3 &&
      cx'.ch.cnt Cnt.CH_CNT_DS_FCS_ERR == 1) = true := by decide +kernel

theorem test_delivered :
    let s := closing (frameOf 0x88B5 []) ruled
    let d := (s.view 0).decides (padFcs (frameOf 0x88B5 [])) (entryOf s)
    closesOf (padFcs (frameOf 0x88B5 [])) s = true ∧ Cx.goodFrame (padFcs (frameOf 0x88B5 [])) (entryOf s) (s.view 0) ∧ d.walk = .rule 5 ∧ (d.act.map fun x => (x.good, x.want, x.indBad, x.noMirror)) =
      some (true, [⟨.rx 2, false, false, false⟩], false, false) ∧
    (d.act.map fun x => (nbit x.c0 0, nbits x.c0 17 16, x.ctx, x.mark)) = some (true, 0, 3, 0x1234) ∧
    (s.view 0).qEn false 2 = true ∧ ((s.view 0).rxq 2).frames.length = 1 ∧
    closes (frameOf 0x88B5 []) s (fun cx cx' => (cx'.rxq 2).frames.length = 2 ∧ cx'.ruleLe 5 0x10 8 = 1 ∧
      cx'.ctxLe 3 0x20 8 = 1 ∧ cx'.hl = cx.hl ∧ cx'.frameBytes 0 64 = padFcs (frameOf 0x88B5 []) ∧
      ((cx'.rxq 2).frames.map fun d => d.info) = [0, 0x1234]) = true := by decide +kernel

theorem test_cipher_return_partial : (twoFragments.view 0).discarding 3 = false ∧ (twoFragments.view 0).partial_ 3 = true ∧
    nbits ((twoFragments.view 0).partW 3) 31 30 = 1 ∧ (twoFragments.view 0).partLen 3 % 256 ≠ 0 ∧
    (twoFragments.view 0).partLen 3 % 256 + 4 ≤ 256 ∧ (twoFragments.view 0).partLen 3 + 4 ≤ (twoFragments.view 0).maxLen := by
  decide +kernel

theorem test_reasm_timeout :
    let s := head (fun h => { h with stu := { h.stu with tick := 1000000000 } }) twoFragments
    s.ready 0 ∧ (s.view 0).running = true ∧ (s.view 0).reasmAged 3 = true ∧ (twoFragments.view 0).reasmAged 3 = false ∧
    (s.view 0).flg Reg.CH_RX_CFG F.CH_RX_CFG_KEEP_BAD = false ∧ (s.view 0).clsOpen = true ∧
    s.chans[(0 : ChanId)].badRows = [] ∧ ((s.view 0).chainFrom 63 (nbits ((s.view 0).partW 3) 13 0)).2 = true ∧
    (∀ i ∈ ((s.view 0).chainFrom 63 (nbits ((s.view 0).partW 3) 13 0)).1, ((s.view 0).cell i).lost = false) ∧
    on0 (.reasmTimeout 0 3 .none) s (fun _ cx' => !cx'.partial_ 3 &&
      cx'.ch.cnt Cnt.CH_CNT_DS_REASM_TIMEOUT == 1) = true := by decide +kernel

theorem test_pause_expiry :
    let s := chan 0 (fun cx => { cx with ch := { cx.ch with us := { cx.ch.us with pause := [(8, some 100)] } } }) enabled
    s.ready 0 ∧ (Sparse.get (fun _ => none) s.chans[(0 : ChanId)].us.pause 8).isSome = true ∧
    on0 (.pauseTimerExpiry 0 8) s (fun _ cx' => cx'.ch.us.pause.isEmpty) = true := by decide +kernel

theorem test_late_word_and_sd : enabled.ready 0 ∧ enabled.chans[(0 : ChanId)].mode ≠ ModeCode.disabled ∧
    (enabled.view 0).lineOn = true ∧ (enabled.view 0).flg Reg.CH_DS_STATUS F.CH_DS_STATUS_FRAMER_SYNC = false ∧
    on0 (.dsWordAfterEnd ⟨0, false⟩) enabled (fun cx cx' => cx' == cx.inc Cnt.CH_CNT_DS_LF_TRUNC) = true ∧
    on0 (.dsWordAfterEnd ⟨0, true⟩) enabled (fun _ cx' => cx'.ch.cnt Cnt.CH_CNT_DS_LF_TRUNC == 1 &&
      cx'.flg Reg.CH_DS_STATUS F.CH_DS_STATUS_FRAMER_SYNC) = true ∧
    on0 (.sdLoss 0 false) enabled (fun _ cx' => cx'.ch.cnt Cnt.CH_CNT_PMD_SD_LOSS == 1) = true ∧
    on0 (.sdLoss 0 false) up (fun _ cx' => cx'.ch.cnt Cnt.CH_CNT_PMD_SD_LOSS == 0) = true := by decide +kernel

/-! ### The classifier, sheaves and the Granary -/

/-- A valid entry 1023 in the fragment table of a channel in Service, long expired. -/
def fragged : State :=
  head (fun h => { h with stu := { h.stu with tick := 0x70000000 } })
    (chan 0 (fun cx => { (cx.setf (Reg.CH_SHEAF_FRAGS 2) F.CH_SHEAF_FRAGS_COUNT 1) with
      ch := { (cx.setf (Reg.CH_SHEAF_FRAGS 2) F.CH_SHEAF_FRAGS_COUNT 1).ch with
        ctxm := Sparse.putBytes cx.ch.ctxm (fragAddr 1023 + 0x18) [0, 0, 0, 0x20, 0, 0, 0, 0x80] } }) enabled)

theorem test_fragment_ages : fragged.ready 0 ∧ (fragged.view 0).fragValid (1023 : Fin 1024) = true ∧
    (fragged.view 0).fragExpired (1023 : Fin 1024) = true ∧ fragged.chans[(0 : ChanId)].coreStopped = false ∧
    (fragged.view 0).mode ≠ ModeCode.stop ∧
    (fragged.view 0).mode ≠ ModeCode.halted ∧ (fragged.view 0).fragValid (0 : Fin 1024) = false ∧
    0 < (fragged.view 0).frags ((fragged.view 0).fragGen (1023 : Fin 1024)) ∧
    on0 (.fragAgeOut 0 1023) fragged (fun _ cx' => !cx'.fragValid 1023 && cx'.ch.cnt Cnt.CH_CNT_FRAG_AGED == 1 &&
      cx'.frags 2 == 0) = true := by decide +kernel

theorem test_fragment_table_disabled : fragged.takes 0 := by decide +kernel

theorem test_tkey : enabled.takes 0 ∧
    on0 (.tkeyCommit 0) (chan 0 (fun cx => (cx.put (Reg.CH_HASH_TKEY 0) 0x11).put (Reg.CH_HASH_TKEY 9) 0x22) enabled)
      (fun _ cx' => BitVec.extractLsb' 288 32 cx'.ch.tkey == (0x11 : Word) &&
        BitVec.extractLsb' 0 32 cx'.ch.tkey == (0x22 : Word)) = true := by decide +kernel

/-- Channel 0 in Service with slot 1 in a state. -/
def slot1 (st : Nat) : State := chan 0 (fun cx => cx.setSlot 1 st) enabled

/-- With an arm that names slot 1. -/
def armed1 : State := chan 0 (fun cx => cx.holdArm 1 5000) (slot1 SlotState.armed)

theorem test_sheaf_accepts :
    (∀ st ∈ [SlotState.free, SlotState.build, SlotState.drained], (slot1 st).takes 0 ∧ ((slot1 st).view 0).sheafBusy = false ∧
      ((slot1 st).view 0).leaving = false ∧ ((slot1 st).view 0).armDue = false ∧ ((slot1 st).view 0).slotState (1 : Fin 4) = st ∧
      ((slot1 st).view 0).armNames (1 : Fin 4) = false) ∧
    armed1.takes 0 ∧ (armed1.view 0).armDue = false ∧ (armed1.view 0).armNames (1 : Fin 4) = true ∧ (armed1.view 0).slotState (1 : Fin 4) = SlotState.armed ∧
    on0 (.build 0 1) (slot1 SlotState.free) (fun _ cx' => cx'.slotState 1 == SlotState.build) = true ∧
    on0 (.abandon 0 1) (slot1 SlotState.build) (fun _ cx' => cx'.slotState 1 == SlotState.free) = true ∧
    on0 (.release 0 1) (slot1 SlotState.drained) (fun _ cx' => cx'.slotState 1 == SlotState.free) = true ∧
    on0 (.disarm 0 1) armed1 (fun _ cx' => cx'.slotState 1 == SlotState.build && !cx'.armValid) = true := by decide +kernel

theorem test_sheaf_refuses :
    let b := chan 0 (fun cx => cx.setf Reg.CH_SHEAF_STATUS F.CH_SHEAF_STATUS_BUSY 1) enabled
    b.takes 0 ∧ (b.view 0).sheafBusy = true ∧ ((slot1 SlotState.current).view 0).slotState (1 : Fin 4) ≠ SlotState.free ∧
    ((slot1 SlotState.current).view 0).slotState (1 : Fin 4) ∉ [SlotState.build, SlotState.draining, SlotState.drained] ∧
    (armed1.view 0).armValid = true ∧ (enabled.view 0).armNames (1 : Fin 4) = false ∧
    on0 (.build 0 1) b (fun _ cx' => cx'.fld Reg.CH_SHEAF_STATUS F.CH_SHEAF_STATUS_RESULT == SheafResult.busy) = true ∧
    on0 (.commit 0 2) armed1 (fun _ cx' =>
      cx'.fld Reg.CH_SHEAF_STATUS F.CH_SHEAF_STATUS_RESULT == SheafResult.badState) = true ∧
    on0 (.build 0 1) (slot1 SlotState.current) (fun _ cx' => cx'.ch.cnt Cnt.CH_CNT_SHEAF_REFUSED == 1) = true ∧
    on0 (.disarm 0 1) enabled (fun _ cx' => cx'.ch.cnt Cnt.CH_CNT_SHEAF_REFUSED == 1) = true ∧
    (let s := head (fun h => { h with stu := { h.stu with tick := 5000 } }) armed1
     s.takes 0 ∧ (s.view 0).armDue = true ∧ (s.view 0).fld Reg.CH_SHEAF_ARM F.CH_SHEAF_ARM_SLOT < 4 ∧
     on0 (.build 0 2) s (fun _ cx' => cx'.slotState 1 == SlotState.current && !cx'.armValid &&
       cx'.fld Reg.CH_SHEAF_STATUS F.CH_SHEAF_STATUS_RESULT == SheafResult.busy) = true) := by decide +kernel

theorem test_commit : (slot1 SlotState.build).takes 0 ∧ ((slot1 SlotState.build).view 0).armValid = false ∧
    on0 (.commit 0 1) (slot1 SlotState.build) (fun _ cx' => cx'.sheafBusy && cx'.ch.checks == [(1, none)]) = true ∧
    on0 (.commit 0 1) (slot1 SlotState.drained) (fun _ cx' => cx'.curSlot == some 1 &&
      cx'.slotState 1 == SlotState.current) = true := by decide +kernel

/-- The root check of slot 1 runs, with slot 0 current. -/
def checking : State := ran (.commit 0 1) (chan 0 (fun cx => (cx.setSlot 0 SlotState.current).setf Reg.CH_SHEAF_STATUS
  F.CH_SHEAF_STATUS_CUR_VALID 1) (slot1 SlotState.build))

/-- With a root of tree 7 that names a node not of its slot. -/
def badRoot : State := chan 0 (fun cx => cx.setf (Reg.CH_TREE_ROOT 1 7) F.CH_TREE_ROOT_VALID 1) checking

theorem test_root_check : checking.ready 0 ∧ checking.chans[(0 : ChanId)].checks = [((1 : Fin 4).val, none)] ∧
    checking.chans[(0 : ChanId)].badRows = [] ∧ badRoot.chans[(0 : ChanId)].badRows = [] ∧
    badRoot.chans[(0 : ChanId)].checks = [((1 : Fin 4).val, none)] ∧
    (checking.view 0).frozen = false ∧ (badRoot.view 0).frozen = false ∧ badRoot.chans[(0 : ChanId)].mode = ModeCode.service ∧ (0 : Fin 65536).val ∈ (badRoot.view 0).checkNodes (1 : Fin 4) ∧
    on0 (.rootCheckDone ⟨0, .treeUe 0⟩) badRoot (fun _ cx' => cx'.mode == ModeCode.halted && !cx'.sheafBusy &&
      cx'.slotState 1 == SlotState.build) = true ∧
    (∀ t < 8, (checking.view 0).rootFault (1 : Fin 4) t = 0) ∧ badRoot.ready 0 ∧ (∃ t < 8, (badRoot.view 0).rootFault (1 : Fin 4) t ≠ 0) ∧
    on0 (.rootCheckDone ⟨0, .none⟩) checking (fun _ cx' => cx'.curSlot == some 1 && cx'.slotState 1 == SlotState.current &&
      cx'.slotState 0 == SlotState.draining && !cx'.sheafBusy) = true ∧
    on0 (.rootCheckDone ⟨0, .none⟩) badRoot (fun _ cx' => cx'.slotState 1 == SlotState.build &&
      cx'.get Reg.CH_SHEAF_CHECK == 0x17 && cx'.curSlot == some 0) = true := by decide +kernel

/-- The root check of an arm for slot 1 at tick 5000, and another that waits behind it. -/
def checkingArm : State := chan 0 (fun cx => { cx with ch := { cx.ch with checks := [(1, some (5000, false)), (2, none)] } }) checking

theorem test_root_check_of_arm : checkingArm.ready 0 ∧ (checkingArm.view 0).frozen = false ∧
    checkingArm.chans[(0 : ChanId)].badRows = [] ∧ (∀ t < 8, (checkingArm.view 0).rootFault (1 : Fin 4) t = 0) ∧
    (checkingArm.view 0).armValid = false ∧ (checkingArm.view 0).slotState (1 : Fin 4) = SlotState.build ∧
    checkingArm.hl.stu.tick.toNat < (5000 : DWord).toNat ∧
    on0 (.rootCheckDone ⟨0, .none⟩) checkingArm (fun _ cx' => cx'.slotState 1 == SlotState.armed && cx'.armTime == 5000 &&
      cx'.sheafBusy && cx'.ch.checks == [(2, none)]) = true := by decide +kernel

theorem test_armed_commit :
    let s := head (fun h => { h with stu := { h.stu with tick := 5000 } }) armed1
    s.ready 0 ∧ (s.view 0).armValid = true ∧ (s.view 0).mode ≠ ModeCode.stop ∧ (s.view 0).mode ≠ ModeCode.halted ∧ (s.view 0).frozen = false ∧
    (s.view 0).fld Reg.CH_SHEAF_ARM F.CH_SHEAF_ARM_SLOT < 4 ∧ (s.view 0).armTime ≤ s.hl.stu.tick.toNat ∧
    armed1.hl.stu.tick.toNat < (armed1.view 0).armTime ∧
    on0 (.armedCommit 0) s (fun _ cx' => cx'.curSlot == some 1 && !cx'.armValid) = true := by decide +kernel

theorem test_slot_drained : (slot1 SlotState.draining).ready 0 ∧
    ((slot1 SlotState.draining).view 0).slotState (1 : Fin 4) = SlotState.draining ∧
    ((slot1 SlotState.draining).view 0).frozen = false ∧ ((slot1 SlotState.draining).view 0).inflight (1 : Fin 4) = 0 ∧ ((slot1 SlotState.draining).view 0).pins (1 : Fin 4) = 0 ∧
    ((slot1 SlotState.draining).view 0).frags (1 : Fin 4) = 0 ∧
    on0 (.slotDrained 0 1) (slot1 SlotState.draining) (fun _ cx' => cx'.slotState 1 == SlotState.drained) = true := by
  decide +kernel

theorem test_glean : enabled.takes 0 ∧ (enabled.view 0).gleaning = false ∧ ((ran (.gleanGo 0) enabled).view 0).gleaning = true ∧
    on0 (.toBitmap 0) (ran (.gleanGo 0) enabled) (fun _ cx' => cx'.grMode == GrMode.bitmap && !cx'.gleaning) = true := by
  decide +kernel

/-- A glean with one cell left to look at. -/
def lastCell : State := chan 0 (fun cx => cx.setf Reg.CH_GR_GLEAN F.CH_GR_GLEAN_POS 12287) (ran (.gleanGo 0) enabled)

theorem test_glean_done : lastCell.ready 0 ∧ (lastCell.view 0).gleaning = true ∧ (lastCell.view 0).mode ≠ ModeCode.stop ∧
    (lastCell.view 0).mode ≠ ModeCode.halted ∧ lastCell.chans[(0 : ChanId)].gr.loss = [] ∧
    lastCell.chans[(0 : ChanId)].badRows = [] ∧ (lastCell.view 0).grPos < numCells ∧
    lastCell.chans[(0 : ChanId)].gr.ring.length + ((List.range numCells).filter fun i =>
      decide ((lastCell.view 0).grPos ≤ i) && !((lastCell.view 0).cell i).alloc).length ≤ numCells ∧
    (lastCell.view 0).grPos = 12287 ∧ ((lastCell.view 0).cell 12287).inconsistent = false ∧
    on0 (.gleanDone ⟨0, .none⟩) lastCell (fun _ cx' => cx'.grMode == GrMode.ring && cx'.ch.gr.ring == [12287] &&
      !cx'.gleaning) = true := by decide +kernel

/-! ### Activation and identity -/

/-- Channel 0 in Acquire, in an activation state, with one management message waiting. -/
def act0 (st : Nat) : State :=
  chan 0 (fun cx => (((cx.setf Reg.CH_DS_CFG F.CH_DS_CFG_MODE DsMode.g9807).setMode ModeCode.acquire).setf Reg.CH_ACT_STATUS
    F.CH_ACT_STATUS_STATE st).onHl fun h => { h with mq := h.mq.set 0 ⟨[[1, 2, 3]], [], []⟩ }) up

/-- With a terminal ID and a delay. -/
def ranged0 : State := chan 0 (fun cx => (cx.putTid (some 40)).putEqd 1000 true) (act0 Act.ranging)

theorem test_mgmt_message : (act0 Act.serialNumber).ready 0 ∧ (act0 Act.serialNumber).hl.fwUp = true ∧
    (act0 Act.serialNumber).hl.mq[(0 : ChanId)].down = [[1, 2, 3]] ∧
    (act0 Act.serialNumber).hl.mq[(0 : ChanId)].up.length + [[7]].length ≤ 8 ∧
    (act0 Act.serialNumber).chans[(0 : ChanId)].coreStopped = false ∧ ranged0.chans[(0 : ChanId)].coreStopped = false ∧
    ((act0 Act.serialNumber).view 0).dsMode ≠ DsMode.ext100 ∧ (ranged0.view 0).dsMode ≠ DsMode.ext100 ∧
    ((act0 Act.serialNumber).view 0).actState = Act.serialNumber ∧ (ranged0.view 0).actState = Act.ranging ∧
    (ranged0.view 0).mode = ModeCode.acquire ∧ (ranged0.view 0).flg Reg.CH_ACT_STATUS F.CH_ACT_STATUS_EQD_VALID = true := by
  decide +kernel

/-- Firmware restarts. -/
def restarting : State → State := head fun h => h.setFwState FwState.restarting

theorem test_to1 : ranged0.ready 0 ∧ (ranged0.view 0).actState = Act.ranging ∧ (ranged0.view 0).fwActs = true ∧
    (ranged0.view 0).idValid = true ∧ (restarting ranged0).ready 0 ∧ (restarting ranged0).hl.fwUp = false ∧
    ((restarting ranged0).view 0).actState = Act.ranging ∧
    on0 (.to1Expiry 0) (restarting ranged0) (fun cx cx' => cx'.ch.act.to1 && cx'.actState == cx.actState) = true ∧ ((act0 Act.operation).view 0).actState ≠ Act.ranging ∧
    on0 (.to1Expiry 0) ranged0 (fun _ cx' => cx'.actState == Act.serialNumber && !cx'.idValid && cx'.bound 40 == none) = true := by
  decide +kernel

/-- In LODS out of Service, fast re-entry not allowed; and allowed. -/
def lods0 : State := chan 0 (fun cx => (cx.setMode ModeCode.service).setf Reg.CH_ACT_STATUS F.CH_ACT_STATUS_STATE Act.lods) ranged0
def lodsFast : State :=
  chan 0 (fun cx => (((cx.setf Reg.CH_MODE_CTL F.CH_MODE_CTL_FAST_OK 1).idPut 0 1 Rec.registered).idPut 1 1 1).idPut 0x54 4 1) lods0

theorem test_to2 : lods0.ready 0 ∧ (lods0.view 0).actState = Act.lods ∧ (lods0.view 0).mode = ModeCode.service ∧
    (lods0.view 0).recState ≠ Rec.stopped ∧ (lods0.view 0).fwActs = true ∧ (restarting lods0).hl.fwUp = false ∧
    ((restarting lods0).view 0).actState = Act.lods ∧ (ranged0.view 0).actState ≠ Act.lods ∧ (restarting lods0).chans[(0 : ChanId)].coreStopped = false ∧ stopped.chans[(0 : ChanId)].coreStopped = true ∧ (lods0.view 0).fastOk = false ∧ (lodsFast.view 0).fastOk = true := by decide +kernel

/-- In fast re-entry, granted; and with HOLD passed. -/
def granted : State := chan 0 (fun cx => cx.setActAux { cx.ch.act with grant := true }) (act0 Act.fastReentry)
def expired : State := head (fun h => { h with stu := { h.stu with tick := 9 } }) (act0 Act.fastReentry)

theorem test_fast_reentry : granted.ready 0 ∧ (granted.view 0).actState = Act.fastReentry ∧
    granted.chans[(0 : ChanId)].act.grant = true ∧ granted.chans[(0 : ChanId)].act.ahead = 0 ∧
    (granted.view 0).fwActs = true ∧ (expired.view 0).fwActs = true ∧ (restarting granted).hl.fwUp = false ∧
    (expired.view 0).actState = Act.fastReentry ∧ (ranged0.view 0).actState ≠ Act.fastReentry ∧ (granted.view 0).mode = ModeCode.acquire ∧
    (expired.view 0).fastExpired = true ∧ (expired.view 0).guard ≠ Guard.accept := by decide +kernel

/-- The mailbox ring holds one command. -/
def posted (s : State) : State :=
  head (fun h => (((h.setf Reg.HL_MB_CMD_CTL F.HL_MB_CMD_CTL_EN 1).setf Reg.HL_MB_CMD_CTL F.HL_MB_CMD_CTL_SIZE_LOG2 6).put
    Reg.HL_MB_CMD_TAIL (h.get Reg.HL_MB_CMD_HEAD + 1)).put Reg.HL_MB_RSP_CTL 0x61) s

/-- The record of a command for a channel, with the OWN bit of the ring's first round. -/
def cmd (op c : Nat) : CmdHead := ⟨BitVec.ofNat 32 (op + c * 2 ^ 16), 0x55, 0, .none⟩

theorem test_serial_set : (posted up).serves (cmd 0x101 0) 0x101 0 ∧ ((posted up).view 0).mode = ModeCode.disabled ∧
    ((posted up).view 0).recState ≤ Rec.serial ∧ ((posted up).view 0).inHandover = false ∧
    ((posted up).view 0).flg Reg.CH_MODE F.CH_MODE_FALLOW = false ∧ (posted up).serves (cmd 0x101 16) 0x101 16 ∧
    ((posted up).view 16).inHandover = false ∧ ((posted up).view 16).flg Reg.CH_MODE F.CH_MODE_FALLOW = true ∧
    ((posted (inMode ModeCode.handover)).view 0).inHandover = true ∧ (posted (inMode ModeCode.handover)).serves (cmd 0x101 0) 0x101 0 ∧
    after (.serialSet (cmd 0x101 16) 77 5) (posted up) (fun t => (t.view 16).recState == Rec.empty) = true ∧ (posted up).duplicateSerial 0 (77 : DWord).toNat = false ∧
    (ran (.serialSet (cmd 0x101 1) 77 5) (posted up)).duplicateSerial 0 (77 : DWord).toNat = true ∧
    on0 (.serialSet (cmd 0x101 0) 77 5) (posted up) (fun _ cx' => cx'.recState == Rec.serial && cx'.idLe 8 8 == 77 &&
      cx'.idLe 0x10 36 == 5 && cx'.idGen == 1) = true := by decide +kernel

theorem test_identity_read : (posted up).serves (cmd 0x102 0) 0x102 0 ∧ (0x1000 : DWord).toNat % 64 = 0 ∧
    ((posted up).view 0).inHandover = false ∧ (posted up).hl.stream.items = [] ∧ (posted up).hl.fatal = false := by
  decide +kernel

theorem test_identity_clear : (posted up).serves (cmd 0x103 0) 0x103 0 ∧ ((posted up).view 0).inHandover = false ∧
    ((posted (inMode ModeCode.halted)).view 0).inHandover = false ∧ ((posted up).view 0).mode = ModeCode.disabled ∧
    (posted (inMode ModeCode.halted)).serves (cmd 0x103 0) 0x103 0 ∧ ((posted (inMode ModeCode.halted)).view 0).mode = ModeCode.halted := by
  decide +kernel

/-- A channel with a serial number; and with a registered port. -/
def serial0 : State := posted (ran (.serialSet (cmd 0x101 0) 77 5) (posted up))
def ported : State := chan 0 (fun cx => (cx.bind 900 (some 12)).setIdPort 900 true) serial0

theorem test_ports : (serial0.view 0).recState ≠ Rec.empty ∧ (serial0.view 0).inHandover = false ∧ serial0.serves (cmd 0x104 0) 0x104 0 ∧
    ported.serves (cmd 0x105 0) 0x105 0 ∧ ported.serves (cmd 0x106 0) 0x106 0 ∧ (ported.view 0).flg Reg.CH_MODE F.CH_MODE_FALLOW = false ∧
    (posted up).serves (cmd 0x106 16) 0x106 16 ∧ ((posted up).view 16).flg Reg.CH_MODE F.CH_MODE_FALLOW = true ∧ ((posted up).view 16).inHandover = false ∧
    after (.fastPolicy (cmd 0x106 16) true) (posted up) (fun t => t.hl.ident == up.hl.ident) = true ∧ (ported.view 0).inHandover = false ∧
    (serial0.view 0).modeIn [ModeCode.disabled, ModeCode.acquire, ModeCode.service] = true ∧
    (serial0.view 0).idPort (900 : BitVec 16).toNat = false ∧ (serial0.view 0).portCount < 16384 ∧
    (ported.view 0).idPort (900 : BitVec 16).toNat = true ∧ (ported.view 0).mgmtPort ≠ some (900 : BitVec 16).toNat := by
  decide +kernel

theorem test_identity_persist : up.hl.fwUp = true ∧ serial0.hl.fwUp = true ∧
    serial0.hl.idLe (0 : ChanId) 2 2 ≠ Sparse.le serial0.hl.psIdent (recSize * (0 : ChanId).val + 2) 2 ∧
    up.hl.idLe (0 : ChanId) 2 2 = Sparse.le up.hl.psIdent (recSize * (0 : ChanId).val + 2) 2 := by decide +kernel

/-! ### Upstream -/

/-- A grant of 400 content bytes for a serial-number burst, and the burst. -/
def snGrant : Grant := ⟨none, false, false, 0, 0, 100, 400, false, 0⟩
def snBurst : Burst := ⟨[snGrant], 0, true, false, 0, 0, 0, 0, 0, Built.none, [], false, false, false⟩
/-- Content that is built whole. -/
def content : Built := ⟨[1, 2, 3, 4], .ended, [], none⟩

/-- Channel 0 in Service in EXT_100 with bursts. -/
def bursting (bs : List Burst) : State :=
  chan 0 (fun cx => ((cx.setf Reg.CH_DS_CFG F.CH_DS_CFG_MODE DsMode.ext100).setMode ModeCode.service).setBursts bs) up

/-- With a window of the guard open. -/
def inWindow (bs : List Burst) : State :=
  chan 0 (fun cx => { cx with ch := { cx.ch with us := { cx.ch.us with windows := [⟨0, 1000, 7⟩] } } }) (bursting bs)

theorem test_burst_due : (bursting [snBurst]).ready 0 ∧ ((bursting [snBurst]).view 0).running = true ∧
    ((bursting [snBurst]).view 0).subStopped 5 = false ∧
    (bursting [snBurst]).chans[(0 : ChanId)].us.bursts.find? Burst.open_ = some snBurst ∧
    snBurst.sIf + (((bursting [snBurst]).view 0).medByte snBurst.profile
        (itemBytes ((bursting [snBurst]).view 0).dsMode + 48) * 8 * ((bursting [snBurst]).view 0).bitQ : Nat) ≤
      ((bursting [snBurst]).view 0).nowQ + ((bursting [snBurst]).view 0).horizon ((bursting [snBurst]).view 0).dsMode ∧
    snBurst.sn = true ∧ snBurst.built = Built.none ∧ snBurst.grants = [snGrant] ∧ snGrant.slot = none ∧
    2 * itemBytes ((bursting [snBurst]).view 0).dsMode + 48 ≤ snGrant.cap := by decide +kernel

theorem test_sn_due : ((bursting [snBurst]).view 0).dueAt snBurst 60 = true ∧
    ((bursting [snBurst]).view 0).dueAt snBurst 392 = true ∧ itemBytes ((bursting [snBurst]).view 0).dsMode = 8 := by decide +kernel

/-- Channel 0 in Service in G.9807 with a burst for allocation slot 3 whose header of 52 bytes is built, whose next
position is `pos`, and of which nothing beyond is due; queue 0 is a member of slot 3, by priority or in rotation, and
holds `fs`. -/
def filling (sched : Bool) (fs : List TxFrame) (pos : BurstPos) (cap : Nat) : State :=
  chan 0 (fun cx =>
    let cx := (cx.setf Reg.CH_DS_CFG F.CH_DS_CFG_MODE DsMode.g9807).setMode ModeCode.service
    let cx := ((cx.put Reg.CH_US_BIT 102400).setf (Reg.CH_US_SLOT 3) F.CH_US_SLOT_VALID 1).setf (Reg.CH_US_SLOT 3)
      F.CH_US_SLOT_SCHED (b2n sched)
    let cx := (cx.put (qCtl true 0) 0x361).setf (Reg.CH_TXQ_MAP 0) F.CH_TXQ_MAP_SLOT 3
    let cx := (cx.setCell 0 { next := 0, last := true, alloc := true, owner := Owner.committed, refs := 1, lost := false, head := true }).setTxq
      0 { cx.txq 0 with frames := fs }
    let us := { cx.ch.us with sched := [(3, 1)], curq := [(3, some 0)], deficit := [(0, 500)] }
    let g : Grant := ⟨some 3, true, false, 0, 0, 100, cap, false, 9⟩
    { cx with ch := { cx.ch with us := { us with bursts := [⟨[g], 5, false, false, 0, 0,
      cx.nowQ + cx.horizon cx.dsMode - (52 * 8 * cx.bitQ : Nat), 0, 0, ⟨List.replicate 52 9, pos, [], none⟩, [], false, false, false⟩] } } }) up

/-- A frame of 64 bytes of which `sent` are sent, with a key or none. -/
def txFrame (sent key : Nat) : TxFrame :=
  ⟨⟨0, 64, true, true, 0, 77, 0, 0, 0, 0⟩, none, 0, none, sent, none, none, key, 0, false, false⟩

/-- The burst of `s`, and its grant. -/
def theBurst (s : State) : Burst := s.chans[(0 : ChanId)].us.bursts.headD snBurst
def theGrant (s : State) : Grant := (theBurst s).grants.headD snGrant

/-- The premises of `fills` for `s`. -/
abbrev fillsAt (s : State) (pos : BurstPos) : Prop := s.fills 0 (theBurst s) (theGrant s) 3 pos

/-- What BURST_DUE puts behind the content of `s`. -/
def grown (rets : List CipherRet) (s : State) (p : List Byte → Built → Cx → Bool) : Bool :=
  on0 (.burstDue 0 rets .none) s fun cx cx' => match cx'.ch.us.bursts with
    | [b] => b.built.out.take 52 == (theBurst s).built.out && p (b.built.out.drop 52) b.built cx' && cx'.hl.pins == cx.hl.pins
    | _ => false

theorem test_turn :
    ((filling false [txFrame 0 0] (.body 0) 200).view 0).slotMembers 3 = [0] ∧
    ((filling false [txFrame 0 0] (.body 0) 200).view 0).eligible 0 0 = true ∧
    (∀ q < 256, ((filling false [] (.body 0) 200).view 0).eligible q 0 = false) ∧
    ((filling false [] (.body 0) 200).view 0).partQueue 3 = none := by decide +kernel

theorem test_grant_filled :
    let s := filling true [txFrame 16 0] (.body 0) 200
    let k := filling false [txFrame 16 1] (.body 0) 200
    fillsAt s (.body 0) ∧ (s.view 0).partQueue 3 = some 0 ∧
    ((s.view 0).checkChain 0).2 = .whole ∧ ((s.view 0).frameBytes 0 64).length = 64 ∧
    s.chans[(0 : ChanId)].gr.ring.length + 63 ≤ numCells ∧ (s.view 0).spaceOf (theBurst s) = 144 ∧
    (txFrame 16 0).env (s.view 0).dsMode = 56 ∧ (s.view 0).dueAt (theBurst s) 108 = false := by decide +kernel

theorem test_grant_fragment :
    let s := filling false [txFrame 16 0] (.body 0) 96
    fillsAt s (.body 0) ∧ (s.view 0).partQueue 3 = some 0 ∧
    (s.view 0).spaceOf (theBurst s) = 40 ∧ maxPli DsMode.g9807 8 40 = 32 ∧ envLen DsMode.g9807 false 32 = 40 ∧
    (s.view 0).dueAt (theBurst s) 92 = false := by decide +kernel

theorem test_grant_idle :
    let s := filling false [] (.body 0) 200
    let r := filling false [] (.report 0) 200
    fillsAt s (.body 0) ∧ fillsAt r (.report 0) ∧ (theGrant r).report = true ∧
    (idleEnv DsMode.g9807 ((s.view 0).spaceOf (theBurst s))).length = 144 ∧
    (s.view 0).dueAt (theBurst s) 196 = false ∧ (r.view 0).dueAt (theBurst r) 56 = false ∧
    grown [] r (fun o b cx' => o.length == 4 && b.pos == .body 0 && cx'.ch.cnt Cnt.CH_CNT_US_REPORTS == 1) = true := by
  decide +kernel

theorem test_burst_start :
    let b := { snBurst with built := content }
    (bursting [snBurst, b]).ready 0 ∧
    ((bursting [snBurst, b]).chans[(0 : ChanId)].us.bursts.find? fun b => b.begun && !b.started) = some b ∧
    ((bursting [snBurst, b]).view 0).running = true ∧ on0 (.burstStart 0 true .none) (bursting [snBurst, b]) (fun _ cx' => cx'.ch.cnt Cnt.CH_CNT_US_BURSTS == 1 &&
      cx'.ch.cnt Cnt.CH_CNT_ACT_SN_SENT == 1 && cx'.ch.cnt Cnt.CH_CNT_ACT_US_MSG == 0) = true := by decide +kernel

theorem test_tx_en :
    let b := { snBurst with built := content }
    let on := { b with on := true }
    (inWindow [b]).ready 0 ∧ (inWindow [b]).chans[(0 : ChanId)].coreStopped = false ∧ ((inWindow [b]).view 0).guardOpen = true ∧
    ((inWindow [b]).chans[(0 : ChanId)].us.bursts.find? fun b => !b.on) = some b ∧
    (bursting [on]).chans[(0 : ChanId)].us.bursts.all Burst.on = true ∧
    (bursting [on]).chans[(0 : ChanId)].disabling = false ∧
    on0 (.txEnOn 0 true) (inWindow []) (fun _ cx' => cx'.ch.us.txEn && cx'.ch.us.bld) = true ∧
    on0 (.txEnOn 0 false) (inWindow [snBurst]) (fun _ cx' => cx'.ch.us.txEn && cx'.ch.us.bursts == [{ snBurst with on := true }]) = true ∧
    on0 (.txEnOn 0 false) (bursting [on]) (fun cx cx' => cx' == cx) = true ∧
    on0 (.txEnOff ⟨0, .none⟩) (bursting [on]) (fun _ cx' => !cx'.ch.us.txEn && cx'.ch.us.bursts == [{ on with off := true }]) = true := by
  decide +kernel

theorem test_guard_trips :
    let s := bursting []
    let h := chan 0 (fun cx => cx.setf Reg.CH_US_GUARD F.CH_US_GUARD_HALT_ON_TRIP 1) s
    let l := chan 0 (fun cx => cx.setf Reg.CH_US_GUARD F.CH_US_GUARD_HALT_ON_TRIP 0) s
    let t := ran (.txEnOn 0 true) l
    s.ready 0 ∧ (s.view 0).modeIn [ModeCode.disabled, ModeCode.stop, ModeCode.halted] = false ∧
    (s.view 0).guardOpen = false ∧ (t.view 0).guardOpen = false ∧
    ((bursting [{ snBurst with built := content }]).view 0).guardOpen = false ∧
    on0 (.txEnOn 0 false) (bursting [{ snBurst with built := content }]) (fun _ cx' => !cx'.ch.us.txEn &&
      cx'.ch.cnt Cnt.CH_CNT_US_ROGUE_TRIP == 1) = true ∧
    s.chans[(0 : ChanId)].us.trip = false ∧ t.chans[(0 : ChanId)].us.trip = true ∧ t.ready 0 ∧
    (s.view 0).mode ≠ ModeCode.halted ∧ s.chans[(0 : ChanId)].coreStopped = false ∧
    (h.view 0).flg Reg.CH_US_GUARD F.CH_US_GUARD_HALT_ON_TRIP = true ∧ (up.view 0).guardOpen = false ∧
    on0 (.txEnOn 0 true) (chan 0 (fun cx => cx.setf Reg.CH_US_GUARD F.CH_US_GUARD_HALT_ON_TRIP 1) up) (fun _ cx' => cx'.ch.cnt Cnt.CH_CNT_DISABLED_FAULT == 1 && cx'.mode == ModeCode.disabled) = true ∧
    (l.view 0).flg Reg.CH_US_GUARD F.CH_US_GUARD_HALT_ON_TRIP = false ∧
    on0 (.txEnOn 0 true) l (fun cx cx' => cx'.ch.cnt Cnt.CH_CNT_US_ROGUE_TRIP == 1 && cx'.mode == cx.mode) = true ∧
    on0 (.txEnOn 0 true) t (fun cx cx' => cx'.ch.cnt Cnt.CH_CNT_US_ROGUE_TRIP == 1 && cx'.mode == cx.mode) = true ∧
    on0 (.txEnOn 0 true) h (fun _ cx' => cx'.mode == ModeCode.halted &&
      cx'.fld Reg.CH_HALT_CAUSE F.CH_HALT_CAUSE_CAUSE == 6) = true := by decide +kernel

/-- A burst on the line with one frame sent, from a frame port or from a queue that asked for a timestamp. -/
def sentBurst (src : Option TxSrc) : Burst :=
  { snBurst with built := content, started := true, on := true, done := [⟨src, 64, 0, false, 4096, 4⟩] }
def tsSrc : TxSrc := ⟨3, 0, 1, 64, true, 9, 0⟩

theorem test_frame_sent :
    let s := bursting [sentBurst none]
    let q := bursting [sentBurst (some tsSrc)]
    let full := chan 0 (fun cx => { cx with ch := { cx.ch with tsq := List.replicate 64 ⟨0, 0, 0⟩ } }) q
    s.ready 0 ∧ (s.view 0).modeIn [ModeCode.halted, ModeCode.stop] = false ∧
    (s.chans[(0 : ChanId)].us.bursts.find? fun b => b.started && !b.done.isEmpty) = some (sentBurst none) ∧
    tsSrc.tsReq = true ∧ 64 ≤ full.chans[(0 : ChanId)].tsq.length ∧
    on0 (.frameSent 0) s (fun _ cx' => cx'.ch.cnt Cnt.CH_CNT_US_FRAMES == 1 && cx'.ch.cnt Cnt.CH_CNT_US_BYTES == 64) = true ∧
    (q.chans[(0 : ChanId)].us.bursts.find? fun b => b.started && !b.done.isEmpty) = some (sentBurst (some tsSrc)) ∧
    on0 (.frameSent 0) (bursting [sentBurst (some { tsSrc with tsReq := false })]) (fun cx cx' => cx'.ch.tsq.isEmpty &&
      cx'.ch.cnt Cnt.CH_CNT_TSQ_PUSH == 0 && cx'.get (Reg.CH_CRING_PROD (cx.qRing true 3)) == 1) = true ∧
    on0 (.frameSent 0) q (fun _ cx' => cx'.ch.tsq == [⟨9, 3, 4096⟩] && cx'.ch.cnt Cnt.CH_CNT_TSQ_PUSH == 1) = true ∧
    on0 (.frameSent 0) full (fun cx cx' => cx'.ch.tsq == cx.ch.tsq && cx'.ch.cnt Cnt.CH_CNT_TSQ_DROP == 1) = true := by
  decide +kernel

/-! ### Descriptor and completion rings -/

/-- Channel 0 in Service with a doorbell page, and completion ring 3 enabled with 64 entries. -/
def ringed : State :=
  chan 0 (fun cx => ((cx.setf Reg.CH_DB_BASE_LO F.CH_DB_BASE_LO_VALID 1).put (Reg.CH_CRING_CTL 3) 0x61)) enabled

/-- A write of a queue's control register: EN, 64 slots, completion ring 3. -/
def qWrite : Word := 0x361

theorem test_queue_enable :
    ringed.takes 0 ∧ (∀ tx : Bool, (ringed.view 0).qEn tx (200 : Fin 256) = false ∧ (ringed.view 0).qIdle tx (200 : Fin 256) = true) ∧
    6 ≤ getF qWrite F.CH_RXQ_CTL_SIZE_LOG2 ∧ (ringed.view 0).flg Reg.CH_DB_BASE_LO F.CH_DB_BASE_LO_VALID = true ∧
    (ringed.view 0).flg (Reg.CH_CRING_CTL (getF qWrite F.CH_RXQ_CTL_CRING)) F.CH_CRING_CTL_EN = true := by decide +kernel

/-- Queue 200 of each kind enabled, with a tail of 2. -/
def queued : State :=
  chan 0 (fun cx => (((cx.put (qCtl true 200) 0x361).put (qTail true 200) 2).put (qCtl false 200) 0x361).put (qTail false 200) 2) ringed

theorem test_queue_takedown : queued.takes 0 ∧ (∀ tx : Bool, (queued.view 0).qEn tx (200 : Fin 256) = true) ∧
    on0 (.queueTakedown ⟨0, .none⟩ true 200 0x360) queued (fun _ cx' => !cx'.qEn true 200) = true ∧
    on0 (.queueTakedown ⟨0, .none⟩ false 200 0x360) queued (fun _ cx' => !cx'.qEn false 200) = true := by decide +kernel

/-- A frame of one committed cell. -/
def frameIn (i : Nat) (cx : Cx) : Cx :=
  cx.setCell i { next := 0, last := true, alloc := true, owner := Owner.committed, refs := 1, lost := false, head := true }

/-- Queue 200 down, and a partly sent frame in it. -/
def downed : State := ran (.queueTakedown ⟨0, .none⟩ true 200 0x360) queued
def partly : TxFrame := ⟨⟨0, 64, true, true, 0, 0, 0, 0, 0, 0⟩, none, 200, none, 32, none, none, 0, 0, false, false⟩
def partDown : State := chan 0 (fun cx => (frameIn 0 cx).setTxq 200 { cx.txq 200 with frames := [partly] }) downed

theorem test_queue_idle : downed.ready 0 ∧ (downed.view 0).qEn true (200 : Fin 256) = false ∧
    (downed.view 0).qIdle true (200 : Fin 256) = false ∧ (downed.view 0).owesNothing true (200 : Fin 256) = true ∧
    (partDown.view 0).owesNothing true (200 : Fin 256) = false ∧ (partDown.view 0).ringsRun = true ∧
    ((partDown.view 0).txq (200 : Fin 256)).frames = [partly] ∧ 0 < partly.sent ∧
    on0 (.queueIdle 0 true 200) downed (fun _ cx' => cx'.qIdle true 200) = true := by decide +kernel

theorem test_db_base : up.takes 0 ∧ enabled.ready 0 ∧ (enabled.view 0).modeIn [ModeCode.disabled, ModeCode.halted] = false := by
  decide +kernel

/-- Line 28, which holds the tail of transmit queue 200, is being read. -/
def lineRead : State :=
  chan 0 (fun cx => cx.setRings { cx.ch.rings with reads := [⟨.doorbell 28, 0, false⟩] }) queued
/-- Its entries: 5 for queue 200, and out of range for the queues around it. -/
def entries : Vector Word 16 := ⟨#[0, 0, 0, 0, 0, 0, 0, 900, 5, 7, 0, 0, 0, 0, 0, 0], rfl⟩

theorem test_tails : lineRead.ready 0 ∧ (lineRead.view 0).subStopped 1 = false ∧ (28 : Fin 36).val < 32 ∧ lineRead.chans[(0 : ChanId)].coreStopped = false ∧
    (lineRead.view 0).readPending (.doorbell 28) = true ∧
    (lineRead.view 0).modeIn [ModeCode.disabled, ModeCode.halted] = false ∧
    on0 (.doorbellLineRead 0 28 entries.toList) lineRead (fun _ cx' => cx'.get (qTail true 200) == 5 &&
      cx'.get (qTail true 199) == 0 && cx'.get (qTail true 201) == 0) = true := by decide +kernel
theorem test_tails_stopped : stopped.ready 0 ∧ stopped.chans[(0 : ChanId)].coreStopped = true ∧
    on0 (.doorbellLineRead 0 28 entries.toList) stopped (fun cx cx' => cx'.get (qTail true 200) == cx.get (qTail true 200)) = true := by
  decide +kernel

/-- Receive descriptors of 64 bytes: good, and with a length of 0. -/
def rxSlot (n : Nat) : List Byte := leBytes 4 1 ++ leBytes 4 n ++ leBytes 8 0x40 ++ leBytes 8 0 ++ leBytes 8 9
/-- The descriptor of a frame of 60 bytes in one buffer. -/
def txSlot : List Byte := leBytes 4 (2 + 16 + 1 * 256 + 60 * 65536) ++ leBytes 4 0 ++ leBytes 8 0x80 ++ leBytes 4 60 ++ leBytes 4 0 ++ leBytes 8 7

theorem test_descriptors : queued.ready 0 ∧ (queued.view 0).subStopped 1 = false ∧ (queued.view 0).qEn false (200 : Fin 256) = true ∧ (queued.view 0).running = true ∧ (0 : Word) = (queued.view 0).get (qHead false 200) ∧
    ((queued.view 0).rxq (200 : Fin 256)).bufs.length < 16 ∧ 0 < idxDiff ((queued.view 0).get (qTail false 200)) 0 ∧
    slotOwn (rxSlot 64) = phaseOf 0 ((queued.view 0).qLog2 false 200) ∧ ((queued.view 0).rxq 200).held = [] ∧
    rxMalformed (rxSlot 64) = 0 ∧ rxMalformed (rxSlot 0) ≠ 0 ∧ slotOwn (rxSlot 0) = 0 ∧
    (queued.view 0).mode ≠ ModeCode.handover ∧
    (0 : Word) = (queued.view 0).get (qHead true 200) ∧ ((queued.view 0).txq 200).descs = [] ∧ ((queued.view 0).txq 200).held = [] ∧
    0 < idxDiff ((queued.view 0).get (qTail true 200)) 0 ∧ slotOwn txSlot = 0 ∧ txMalformed ⟨0, 0, 0, 0⟩ txSlot = 0 := by decide +kernel

/-- A held receive slot that did not match when it was read. -/
def heldOne : State := chan 0 (fun cx => cx.setHeld false 200 [⟨0, rxSlot 64, false, true⟩]) queued

theorem test_reread : ((heldOne.view 0).rxq (200 : Fin 256)).held = [⟨0, rxSlot 64, false, true⟩] ∧ heldOne.ready 0 ∧
    on0 (.ownReread 0 false 200 (rxSlot 64)) heldOne (fun _ cx' => cx'.get (qHead false 200) == 1 &&
      cx'.ch.cnt Cnt.CH_CNT_RX_DESC == 1) = true := by decide +kernel

theorem test_host_read : lineRead.chans[(0 : ChanId)].rings.reads = [⟨.doorbell 28, 0, false⟩] ∧
    fatalCode 0x7F = false ∧ fatalCode 0x80 = true ∧ (lineRead.view 0).mode = ModeCode.service ∧
    on0 (.hostReadRetry 0 (.doorbell 28) 0x7F) lineRead (fun _ cx' =>
      cx'.ch.rings.reads == [⟨.doorbell 28, 1, false⟩]) = true ∧
    on0 (.hostReadRetry 0 (.doorbell 28) 0x80) lineRead (fun _ cx' => cx'.mode == ModeCode.halted) = true := by decide +kernel

/-- A taken chain of queue 200 whose turn it is; and its frame being stored. -/
def chained : State := chan 0 (fun cx => cx.setRings { cx.ch.rings with turn := 200 })
  (ran (.descriptorFetch 0 true 200 0 [txSlot]) queued)
def storing : State := ran (.txFrameStart 0) chained

theorem test_tx_start : chained.ready 0 ∧ (chained.view 0).ringsRun = true ∧
    chained.chans[(0 : ChanId)].rings.turn = (200 : Fin 256).val ∧ (chained.view 0).qEn true (200 : Fin 256) = true ∧
    ((chained.view 0).txq (200 : Fin 256)).storing = none ∧ (((chained.view 0).txq (200 : Fin 256)).chain).isSome = true ∧
    (chained.view 0).cplRoom ((chained.view 0).qRing true (200 : Fin 256)) = true ∧
    min numCells ((chained.view 0).fld Reg.CH_GR_CFG F.CH_GR_CFG_US_FLOOR) + cellsFor (storedLen 60) +
      (chained.view 0).reserved ≤ (chained.view 0).freeCount := by decide +kernel

theorem test_tx_storing : storing.ready 0 ∧ (storing.view 0).finishing = true ∧
    (((storing.view 0).txq (200 : Fin 256)).chain).isSome = true ∧
    (∃ e, ((storing.view 0).txq (200 : Fin 256)).storing = some e ∧ ∀ g, e.slot = some g → g < 4) ∧
    on0 (.txBufferReadError 0 200 [1, 2, 3] 4) storing (fun _ cx' => cx'.ch.cnt Cnt.CH_CNT_TX_READ_ERR == 1 &&
      cx'.get (qHead true 200) == 1 && ((cx'.txq 200).storing).isNone) = true ∧
    on0 (.txBufferReadError 0 200 [1, 2, 3] 0x80) storing (fun _ cx' => cx'.mode == ModeCode.halted) = true := by
  decide +kernel

/-- `storing` with slot 0 CURRENT: every root is rule 5, which forwards to transmit queue 200. -/
def storingRuled : State :=
  ran (.txFrameStart 0) (chan 0 (fun cx =>
    let cx := (cx.setSlot 0 SlotState.current).setf Reg.CH_SHEAF_STATUS F.CH_SHEAF_STATUS_CUR_VALID 1
    let cx := (List.range 8).foldl (fun cx t => ((cx.setf (Reg.CH_TREE_ROOT 0 t) F.CH_TREE_ROOT_VALID 1).setf
      (Reg.CH_TREE_ROOT 0 t) F.CH_TREE_ROOT_ROOT_IS_RULE 1).setf (Reg.CH_TREE_ROOT 0 t) F.CH_TREE_ROOT_ROOT 5) cx
    { cx with ch := { cx.ch with ctxm := Sparse.putBytes (Sparse.putBytes cx.ch.ctxm (ruleAddr 5)
      ([1, 0x21, 3, 0, 0, 0, 0, 0, 0x10, 0, 0, 0, 0, 0, 0, 0])) (ctxAddr 0) [1] } }) chained)

/-- What queue 200 stores, and its bytes. -/
def storingEntry : Entry := ((storingRuled.view 0).txq 200).storing.getD ⟨none, 0, 0, 0, none⟩
def txPlain : List Byte := (([1, 2, 3] : List Byte) ++ List.replicate 60 0).take 60

theorem test_tx_forward :
    let d := (storingRuled.view 0).usDecides txPlain storingEntry 200
    storingRuled.ready 0 ∧ (storingRuled.view 0).finishing = true ∧ (storingRuled.view 0).qEn true (200 : Fin 256) = true ∧
    ((storingRuled.view 0).txq (200 : Fin 256)).storing = some storingEntry ∧
    ((storingRuled.view 0).txq (200 : Fin 256)).chain.map (fun c => c.1.frameLen) = some 60 ∧ storingEntry.slot = some 0 ∧
    storingEntry.seen = none ∧ storingRuled.chans[(0 : ChanId)].badRows = [] ∧
    (∀ n ∈ storingRuled.chans[(0 : ChanId)].gr.ring, n < numCells) ∧
    ((storingRuled.view 0).storeFrame Owner.usRing true (padFcs txPlain)).1 = some 0 ∧
    (parse (storingRuled.view 0).parseCfg txPlain).cause = 0 ∧ (parse (storingRuled.view 0).parseCfg txPlain).frag = false ∧
    d.walk = .rule 5 ∧ (d.act.map fun x => (x.good, x.want, x.indBad, x.noMirror)) = some (true, [⟨.tx 200, false, false, false⟩], false, false) ∧
    (d.act.map fun x => (nbit x.c0 0, nbits x.c0 17 16, x.ctx)) = some (true, 0, 0) := by decide +kernel

/-- A received frame of 64 bytes at the head of queue 200, with and without a buffer for it. -/
def rxFrame : RxDeliv := ⟨⟨5, 64, false, true, 0, 0, 0, 0, 0, 0⟩, 0, 0, false, false, false⟩
def delivered (bs : List RxBuf) : State := chan 0 (fun cx => (frameIn 5 cx).setRxq 200 ⟨[], bs, [rxFrame], true, []⟩) queued

theorem test_rx_out : (delivered [⟨0, 64, 0x40, 9, false⟩]).ready 0 ∧ ((delivered [⟨0, 64, 0x40, 9, false⟩]).view 0).ringsRun = true ∧
    (((delivered [⟨0, 64, 0x40, 9, false⟩]).view 0).rxq (200 : Fin 256)).frames = [rxFrame] ∧
    ((delivered [⟨0, 64, 0x40, 9, false⟩]).view 0).rxNeed (200 : Fin 256) = some 1 ∧
    (((delivered [⟨0, 64, 0x40, 9, false⟩]).view 0).checkChain rxFrame.frame.cell).2 = .whole ∧
    ((delivered [⟨0, 64, 0x40, 9, false⟩]).view 0).cplRoom 3 = true ∧
    (delivered [⟨0, 64, 0x40, 9, false⟩]).chans[(0 : ChanId)].badRows = [] ∧
    (delivered [⟨0, 64, 0x40, 9, false⟩]).chans[(0 : ChanId)].stream.items = [] ∧
    (delivered [⟨0, 64, 0x40, 9, false⟩]).chans[(0 : ChanId)].stream.closed = false ∧
    ((delivered []).view 0).rxNeed (200 : Fin 256) = none ∧ (((delivered []).view 0).rxq (200 : Fin 256)).holding = true := by
  decide +kernel

theorem test_cring : ringed.takes 0 ∧ (ringed.view 0).crEn (63 : Fin 64) = false ∧ (ringed.view 0).crIdle (63 : Fin 64) = true ∧
    6 ≤ getF 0x61 F.CH_CRING_CTL_SIZE_LOG2 ∧ (ringed.view 0).crEn (3 : Fin 64) = true := by decide +kernel

/-- Completion ring 3 with NOTIFY and 4 entries not yet read. -/
def noted : State :=
  chan 0 (fun cx => (cx.setf (Reg.CH_CRING_CTL 3) F.CH_CRING_CTL_NOTIFY 1).put (Reg.CH_CRING_PROD 3) 4) ringed

theorem test_cring_arm : noted.takes 0 ∧ (noted.view 0).crEn (3 : Fin 64) = true ∧
    (noted.view 0).flg (Reg.CH_CRING_CTL (3 : Fin 64)) F.CH_CRING_CTL_NOTIFY = true ∧
    idxDiff 4 ((noted.view 0).get (Reg.CH_CRING_CONS (3 : Fin 64))) ≤ (noted.view 0).crUsed (3 : Fin 64) ∧
    (noted.view 0).crUsed (3 : Fin 64) < idxDiff 5 ((noted.view 0).get (Reg.CH_CRING_CONS (3 : Fin 64))) ∧
    (noted.view 0).crEn (4 : Fin 64) = false ∧
    on0 (.cringArm 0 3 4) noted (fun _ cx' => cx'.flg (Reg.CH_CRING_CTL 3) F.CH_CRING_CTL_ARMED) = true ∧
    on0 (.cringArm 0 3 2) noted (fun _ cx' => cx'.ch.cnt Cnt.CH_CNT_CPL_VEC == 1) = true ∧
    on0 (.cringArm 0 3 5) noted (fun cx cx' => cx' == cx.inc Cnt.CH_CNT_CPL_BAD_CONS) = true := by decide +kernel

/-- A held completion of ring 3. -/
def heldCpl : CplEntry := ⟨3, 1, true, 200, 1, false, false, false, 0, 0, 60, 0, 7, 0, false⟩
def holdOne : State := chan 0 (fun cx => cx.setRings { cx.ch.rings with hold := [heldCpl] }) noted
def holdFull : State := chan 0 (fun cx => cx.put (Reg.CH_CRING_PROD 3) 64) holdOne
/-- The transmit frame of queue 200 is stalled on ring 3. -/
def stalled : State := chan 0 (fun cx => (cx.setRings { cx.ch.rings with stalled := [(3, some (.tx 200))] }).setf
  (Reg.CH_CRING_STAT 3) F.CH_CRING_STAT_STALLED 1) chained

theorem test_held : holdOne.ready 0 ∧ holdOne.chans[(0 : ChanId)].coreStopped = false ∧ (holdOne.view 0).mode ≠ ModeCode.halted ∧
    (holdOne.view 0).subStopped 2 = false ∧ (stalled.view 0).qEn true (200 : Fin 256) = true ∧
    ((stalled.view 0).txq (200 : Fin 256)).storing = none ∧ stalled.chans[(0 : ChanId)].rings.rxq = [] ∧
    (holdOne.view 0).crFree (3 : Fin 64) = true ∧ holdOne.chans[(0 : ChanId)].rings.hold = [heldCpl] ∧ heldCpl.ring = (3 : Fin 64).val ∧
    (holdFull.view 0).crFree (3 : Fin 64) = false ∧ (stalled.view 0).ringsRun = true ∧ (stalled.view 0).cplRoom (3 : Fin 64) = true ∧
    (stalled.view 0).qRing true (200 : Fin 256) = (3 : Fin 64).val ∧
    Sparse.get (fun _ => none) stalled.chans[(0 : ChanId)].rings.stalled (3 : Fin 64).val = some (.tx (200 : Fin 256).val) ∧
    (up.view 0).cplRoom (3 : Fin 64) = true := by decide +kernel

/-! ### Events, vectors and time -/

/-- A record of source 5 for event ring 2, at the head of the Headland's stream, pending. -/
def evRec : EvRec := ⟨5, 2, 1, 0x77, 9⟩
def evRing (en : Bool) (prod : Word) (s : State) : State :=
  head (fun h => ((h.put (Reg.HL_EVR_CTL 2) (if en then 0x61 else 0)).put (Reg.HL_EVR_PROD 2) prod).put (Reg.HL_EVSRC 5) 0x80000012) s
def evHead (en : Bool) (prod : Word) : State :=
  head (fun h => { h with stream := { h.stream with items := [.event evRec] } }) (evRing en prod up)
/-- The same on channel 0's stream; and the record deferred. -/
def evChan : State := chan 0 (fun cx => { cx with ch := { cx.ch with stream := { cx.ch.stream with items := [.event evRec] } } }) (evRing true 0 up)
def evDef : State := head (fun h => { h with deferred := [evRec] }) (evRing true 0 up)

theorem test_event_head : (evHead true 0).up ∧ (evHead true 0).hl.stream.items = [.event evRec] ∧ evRec.source < 512 ∧ evRec.ring < 16 ∧
    (evHead true 0).hl.evrEn evRec.ring = true ∧ (evHead true 0).hl.evrFree evRec.ring = true ∧
    (evHead true 0).hl.flg (Reg.HL_EVR_CTL evRec.ring) F.HL_EVR_CTL_NOTIFY = false ∧
    (evHead true 64).hl.evrFree evRec.ring = false ∧ (evHead true 64).hl.flg (Reg.HL_EVSRC Ev.evrFull) F.HL_EVSRC_PENDING = false ∧
    (evHead false 0).hl.evrEn evRec.ring = false ∧ evChan.ready 0 ∧ evChan.chans[(0 : ChanId)].stream.items = [.event evRec] ∧
    onH (.eventRecordHead none) (evHead true 0) (fun _ h' => h'.cnt Cnt.HL_CNT_EV_RECORDS == 1 &&
      h'.get (Reg.HL_EVR_PROD 2) == 1 && !h'.flg (Reg.HL_EVSRC 5) F.HL_EVSRC_PENDING) = true ∧
    onH (.eventRecordHead none) (evHead true 64) (fun _ h' => h'.deferred == [evRec]) = true ∧
    onH (.eventRecordHead none) (evHead false 0) (fun _ h' => h'.cnt Cnt.HL_CNT_EV_DISCARD == 1) = true := by decide +kernel

theorem test_event_deferred : evDef.up ∧ evDef.hl.evrEn (2 : Fin 16) = true ∧ evDef.hl.evrFree (2 : Fin 16) = true ∧
    (evDef.hl.deferred.find? fun r => r.ring == (2 : Fin 16).val) = some evRec ∧ evDef.hl.evrEn (3 : Fin 16) = false ∧
    onH (.eventDeferredWrite 2) evDef (fun _ h' => h'.deferred == [] && h'.get (Reg.HL_EVR_PROD 2) == 1) = true := by decide +kernel

theorem test_event_rings : up.hl.evrEn (15 : Fin 16) = false ∧ 6 ≤ getF 0xC1 F.HL_EVR_CTL_SIZE_LOG2 ∧
    getF 0xC1 F.HL_EVR_CTL_SIZE_LOG2 ≤ 12 ∧ evDef.hl.evrEn (2 : Fin 16) = true ∧ (∀ r ∈ evDef.hl.deferred, r.source < 512) ∧
    onH (.evrEnable 15 0xC1) up (fun _ h' => h'.evrEn 15 && h'.evrSize 15 == 4096) = true ∧
    onH (.evrDisable 2 0x60) evDef (fun _ h' => !h'.evrEn 2 && h'.deferred == [] && h'.cnt Cnt.HL_CNT_EV_DISCARD == 1) = true ∧
    onH (.evrConsWrite 2 3) (evRing true 3 up) (fun _ h' => h'.get (Reg.HL_EVR_CONS 2) == 3) = true ∧
    onH (.evrConsWrite 2 4) (evRing true 3 up) (fun h h' => h' == h.inc Cnt.HL_CNT_EV_BAD_CONS) = true := by decide +kernel

theorem test_moderation :
    let a := head (fun h => h.setEvrAux 2 ⟨true, false, false⟩) (evRing true 0 up)
    let b := head (fun h => h.setEvrAux 2 ⟨true, true, false⟩) (evRing true 0 up)
    (a.hl.evrAux (2 : Fin 16)).timer = true ∧ (a.hl.evrAux (2 : Fin 16)).noted = false ∧ (b.hl.evrAux (2 : Fin 16)).noted = true ∧
    b.hl.stream.items = [] ∧ b.hl.fatal = false ∧ b.hl.pins.testEn = false ∧ b.hl.get Reg.HL_VEC_MASK_LO = 0 ∧ b.hl.get Reg.HL_VEC_MASK_HI = 0 ∧
    onH (.evrHoldoffExpiry 2) a (fun _ h' => !(h'.evrAux 2).timer) = true ∧
    onH (.evrHoldoffExpiry 2) b (fun h h' => (h'.evrAux 2).timer && h'.cnt Cnt.HL_CNT_VEC_MSGS == 1 &&
      h'.pins.vecLast == some (h.fld (Reg.HL_EVR_CTL 2) F.HL_EVR_CTL_VECTOR)) = true := by decide +kernel
theorem test_unmask :
    let s := head (fun h => (h.put Reg.HL_VEC_PEND_LO 0x80000003).put Reg.HL_VEC_MASK_LO 0xFFFFFFFF) up
    s.up ∧ onH (.vecUnmask false 2) s (fun _ h' => h'.get Reg.HL_VEC_PEND_LO == 2 && h'.cnt Cnt.HL_CNT_VEC_MSGS == 2) = true := by
  decide +kernel

theorem test_calendar :
    let s := head (fun h => (h.put Reg.HL_STU_ADJ_NS_LO 0xFFFFFFFF).put Reg.HL_STU_ADJ_NS_HI 0xFFFFFFFF) up
    let t := head (fun h => ((h.put Reg.HL_STU_SET_SEC_LO 7).put Reg.HL_STU_SET_SEC_HI 1).put Reg.HL_STU_SET_NS 999999999) up
    s.up ∧ t.hl.fld Reg.HL_STU_SET_NS F.HL_STU_SET_NS_NS < 1000000000 ∧
    onH .stuAdj s (fun _ h' => h'.stu.sec == 2 ^ 48 - 1 && h'.stu.ns == 999999999 && h'.cnt Cnt.HL_CNT_STU_STEPS == 1) = true ∧
    onH .stuSet t (fun _ h' => h'.stu.sec == 2 ^ 32 + 7 && h'.stu.ns == 999999999 && h'.stu.tick == 0) = true ∧
    onH .stuSnapshot (ran .stuSet t) (fun _ h' => h'.get Reg.HL_STU_SNAP_SEC_LO == 7 && h'.get Reg.HL_STU_SNAP_NS == 999999999) = true := by
  decide +kernel

theorem test_tu_arm : enabled.takes 0 ∧ enabled.hl.fwUp = true ∧ (accepting.view 0).guard = Guard.accept ∧
    (0 : BitVec 51).toNat ≤ (accepting.view 0).dsSfc ∧ (enabled.view 0).guard ≠ Guard.accept ∧
    on0 (.tuMsgArm 0 0x7FFFFFFFFFFFF 5 999999999 3) enabled (fun _ cx' => cx'.armPending && cx'.armSfc == 2 ^ 51 - 1) = true ∧
    on0 (.tuMsgArm 0 0 5 6 3) accepting (fun _ cx' => !cx'.armPending && cx'.ch.cnt Cnt.CH_CNT_TU_MSG_LOST == 1) = true ∧
    on0 (.tsqPop 0) (chan 0 (fun cx => { cx with ch := { cx.ch with tsq := [⟨1, 2, 3⟩, ⟨4, 5, 6⟩] } }) enabled)
      (fun _ cx' => cx'.ch.tsq == [⟨4, 5, 6⟩]) = true := by decide +kernel

/-- The Headland's servo follows PPS; or channel 0. -/
def pps : State := head (fun h => (h.setf Reg.HL_STU_CTL F.HL_STU_CTL_SRC 2).setf Reg.HL_STU_STATUS F.HL_STU_STATUS_SRC_VALID 1) up
def validTu : State := chan 0 (fun cx => { cx with ch := { cx.ch with tu := { cx.ch.tu with valid := true } } }) enabled
def tuIn (st : Nat) (s : State) : State := chan 0 (fun cx => (cx.setf Reg.CH_TU_STATUS F.CH_TU_STATUS_STATE st).setf Reg.CH_TU_LIMITS F.CH_TU_LIMITS_HOLD_MAX 5) s

/-- Channel 0 in Stop, its unit LOCKED with no sample to come. -/
def tuStop : State := chan 0 (fun cx => cx.setMode ModeCode.stop) (tuIn ServoState.locked validTu)

/-- Channel 0 in Stop, its unit in HOLDOVER; and the Headland's own servo in HOLDOVER. -/
def holdStop : State := chan 0 (fun cx => cx.setMode ModeCode.stop) (tuIn ServoState.holdover up)
def stuHold : State := head (fun h => ((h.setf Reg.HL_STU_STATUS F.HL_STU_STATUS_STATE ServoState.holdover).setf Reg.HL_STU_LIMITS
  F.HL_STU_LIMITS_HOLD_MAX 5).put Reg.HL_STU_INTEG 9) pps

theorem test_holdover : holdStop.ready 0 ∧ (holdStop.view 0).mode = ModeCode.stop ∧
    on0 (.holdoverExpiry (some 0)) holdStop (fun cx cx' => cx' == cx) = true ∧
    (tuIn ServoState.holdover up).chans[(0 : ChanId)].coreStopped = false ∧ ((tuIn ServoState.holdover up).view 0).mode ≠ ModeCode.stop ∧
    stuHold.hl.stuChan = none ∧ stuHold.hl.stuServo.st = ServoState.holdover ∧
    stuHold.hl.fld Reg.HL_STU_LIMITS F.HL_STU_LIMITS_HOLD_MAX ≠ 0 ∧
    onH (.holdoverExpiry none) stuHold (fun _ h' => h'.stuServo.st == ServoState.free && h'.get Reg.HL_STU_FREQ == 9) = true := by
  decide +kernel

theorem test_integ_of_source :
    let s := ran (.stuSourceChange 1) enabled
    s.takes 0 ∧ (s.view 0).isStuSource = true ∧ (s.view 0).tuServo.st = ServoState.free ∧ (s.view 0).get Reg.CH_TU_INTEG = 0 ∧
    (enabled.view 0).get Reg.CH_TU_INTEG = 0 ∧ up.hl.get Reg.HL_STU_INTEG = 0 ∧
    on0 (.integWrite (some 0) 77) s (fun cx cx' => cx' == cx.put Reg.CH_TU_INTEG 77) = true ∧
    onH (.integWrite none 0) up (fun h h' => h' == h) = true := by decide +kernel

theorem test_servo : up.hl.stuSrc = 0 ∧ getF (0x30000 &&& 0x31F03) F.HL_STU_CTL_SRC = up.hl.stuSrc ∧
    getF (0x30000 &&& 0x31F03) F.HL_STU_CTL_CHAN = up.hl.fld Reg.HL_STU_CTL F.HL_STU_CTL_CHAN ∧
    tuStop.ready 0 ∧ (tuStop.view 0).tuEligible = false ∧ (tuStop.view 0).isStuSource = false ∧
    on0 (.sourceInvalid (some 0)) tuStop (fun _ cx' => cx'.tuServo.st == ServoState.locked && !cx'.ch.tu.valid) = true ∧
    getF (2 &&& 0x31F03) F.HL_STU_CTL_SRC = 2 ∧ getF (1 &&& 0x31F03) F.HL_STU_CTL_SRC = 1 ∧ getF (1 &&& 0x31F03) F.HL_STU_CTL_CHAN = 0 ∧
    pps.hl.stuSrc = 2 ∧ pps.hl.flg Reg.HL_STU_STATUS F.HL_STU_STATUS_SRC_VALID = true ∧ validTu.ready 0 ∧
    (validTu.view 0).tuEligible = false ∧ validTu.chans[(0 : ChanId)].tu.valid = true ∧ (validTu.view 0).isStuSource = false ∧
    ((tuIn ServoState.holdover up).view 0).tuServo.st = ServoState.holdover ∧
    ((tuIn ServoState.holdover up).view 0).fld Reg.CH_TU_LIMITS F.CH_TU_LIMITS_HOLD_MAX ≠ 0 ∧
    (enabled.view 0).tuServo.st = ServoState.free ∧ ((tuIn ServoState.locked up).view 0).tuServo.st ≠ ServoState.free ∧
    up.hl.stuServo.st = ServoState.free ∧
    onH (.stuSourceChange 2) up (fun _ h' => h'.stuSrc == 2) = true ∧
    on0 (.stuSourceChange 1) up (fun _ cx' => cx'.isStuSource) = true ∧
    onH (.sourceInvalid none) pps (fun _ h' => h'.cnt Cnt.HL_CNT_STU_SRC_LOST == 1) = true ∧
    on0 (.sourceInvalid (some 0)) (tuIn ServoState.locked validTu) (fun _ cx' => cx'.tuServo.st == ServoState.holdover) = true ∧
    on0 (.holdoverExpiry (some 0)) (tuIn ServoState.holdover up) (fun _ cx' => cx'.tuServo.st == ServoState.free) = true ∧
    on0 (.integWrite (some 0) 77) enabled (fun _ cx' => cx'.get Reg.CH_TU_INTEG == 77 && cx'.get Reg.CH_TU_FREQ == 77) = true ∧
    onH (.integWrite none 77) up (fun _ h' => h'.get Reg.HL_STU_FREQ == 77) = true := by decide +kernel

/-- A ToD message for second 100, with its check. -/
def todMsg : List Byte :=
  let m := [0xC3, 0x3C, 1, 1] ++ beBytes 6 100 ++ [0, 0, 0, 0]
  m ++ beBytes 2 (crc16 m)

theorem test_pps : pps.hl.stuSrc = 2 ∧ pps.hl.ppsAccept = true ∧ up.hl.stuSrc ≠ 2 ∧
    onH .ppsInEdge up (fun h h' => h' == h.inc Cnt.HL_CNT_STU_PPS_BAD) = true ∧
    onH .ppsInEdge pps (fun _ h' => h'.cnt Cnt.HL_CNT_STU_SAMPLES == 1) = true ∧
    (ran .ppsInEdge pps).hl.ppsAccept = false ∧ (ran .ppsInEdge pps).hl.stuSrc = 2 ∧
    onH .ppsGapTimeout pps (fun h h' => h' == h.inc Cnt.HL_CNT_STU_PPS_BAD) = true ∧
    (let s := head (fun h => (h.setf Reg.HL_STU_CTL F.HL_STU_CTL_PPS_OUT_EN 1).setf Reg.HL_STU_CTL F.HL_STU_CTL_TOD_OUT_EN 1) up
     s.hl.flg Reg.HL_STU_CTL F.HL_STU_CTL_PPS_OUT_EN = true ∧ (ran .ppsOutRise s).hl.pps.todDue = some 1 ∧
     (ran .ppsOutRise s).hl.flg Reg.HL_STU_CTL F.HL_STU_CTL_TOD_OUT_EN = true ∧ (ran .ppsOutFall (ran .ppsOutRise s)).hl.pins.pps = false) ∧
    (let r := head (fun h => { (h.setf Reg.HL_STU_CTL F.HL_STU_CTL_TOD_OUT_EN 1) with
       pps := { h.pps with todDue := some 7 }
       pins := { h.pins with testEn := true } }) up
     r.up ∧ r.hl.outputsReset = true ∧ up.hl.outputsReset = false ∧ onH .todOutSend r (fun h h' => h' == h) = true) ∧
    todOk todMsg = true ∧ todOk [] = false ∧
    onH (.todInMessage todMsg true) up (fun _ h' => h'.get Reg.HL_STU_PPS_SEC_LO == 100) = true ∧
    onH (.todInMessage todMsg false) up (fun h h' => h' == h.inc Cnt.HL_CNT_STU_TOD_BAD) = true := by decide +kernel

/-! ### The Drill -/

theorem test_drill_write :
    let s := chan 0 (fun cx => ((cx.put Reg.CH_DRILL_S_TIME_LO 500).setf Reg.CH_DRILL_S_ACT F.HL_DRILL_S_ACT_ACTION DrAct.gateClose).put
      Reg.CH_DRILL_S_COUNT 3) enabled
    s.takes 0 ∧ (63 : Fin 256).val < 64 ∧ (s.view 0).dueUpTo (63 : Fin 256) = [] ∧ (s.view 0).staged.chRefused = false ∧
    (chan 0 (fun cx => cx.setf Reg.CH_DRILL_S_ACT F.HL_DRILL_S_ACT_ACTION 15) s).takes 0 ∧
    ((chan 0 (fun cx => cx.setf Reg.CH_DRILL_S_ACT F.HL_DRILL_S_ACT_ACTION 15) s).view 0).staged.chRefused = true ∧
    on0 (.drillWrite (some 0) 63) s (fun _ cx' => (cx'.drillAt 63).remain == 3 && (cx'.drillAt 63).time == 500 * 65536) = true ∧
    on0 (.drillRead (some 0) 63) (ran (.drillWrite (some 0) 63) s) (fun _ cx' => cx'.get Reg.CH_DRILL_S_TIME_LO == 500) = true ∧
    on0 (.drillDisarm (some 0) 63) (ran (.drillWrite (some 0) 63) s) (fun _ cx' => !(cx'.drillAt 63).en) = true ∧
    up.hl.dueUpTo (255 : Fin 256) = [] ∧ up.hl.staged.hlRefused = false ∧
    (head (fun h => h.setf Reg.HL_DRILL_S_ACT F.HL_DRILL_S_ACT_ACTION 15) up).hl.staged.hlRefused = true ∧
    onH (.drillWrite none 255) (head (fun h => h.put Reg.HL_DRILL_S_TIME_LO 9) up) (fun _ h' => (h'.drillAt 255).time == 9 * 65536) = true := by
  decide +kernel

/-- An entry that closes the gate of queue 33 once at tick 100, and a Headland entry that pulses output 15. -/
def gateEntry : DrillEntry := ⟨100 * 65536, DrAct.gateClose, 33, 0, 0, 0, 0, false, true, DrState.armed, 0, 0⟩
def pulseEntry : DrillEntry := ⟨100 * 65536, DrAct.pulse, 15, 10, 0, 0, 0, false, true, DrState.armed, 0, 0⟩
def gateAt (t : DWord) : State :=
  head (fun h => { h with stu := { h.stu with tick := t }, drill := [(7, pulseEntry)], drillQ := [7] })
    (chan 0 (fun cx => (cx.putDrill 63 gateEntry).setDrillQ [63]) enabled)
/-- Two entries of one gate and one cycle: entry 62 opens it and entry 63 closes it. -/
def gates2 : State := chan 0 (fun cx => (cx.putDrill 62 { gateEntry with action := DrAct.gateOpen }).setDrillQ [63, 62]) (gateAt 100)

theorem test_drill_fire : (gateAt 100).ready 0 ∧ ((gateAt 100).view 0).drillAt (63 : Fin 256) = gateEntry ∧
    ((gateAt 100).view 0).dueUpTo (63 : Fin 256) = [63] ∧ gateEntry.period = 0 ∧ gateEntry.lateOk = false ∧
    0 ≤ shortDiff gateEntry.time ((gateAt 100).view 0).time16 ∧
    ((gateAt 101).view 0).dueUpTo (63 : Fin 256) = [63] ∧
    shortDiff gateEntry.time ((gateAt 101).view 0).time16 < 0 ∧ (gateAt 101).hl.deferred = [] ∧
    ((gateAt 99).view 0).dueUpTo (63 : Fin 256) = [] ∧ (gateAt 100).takes 0 ∧
    on0 (.drillDisarm (some 0) 63) (gateAt 100) (fun _ cx' => cx'.get (Reg.CH_DRILL_GATE 1) == 2 && !(cx'.drillAt 63).en &&
      (cx'.drillAt 63).state == DrState.idle && (cx'.drillAt 63).fired == 1) = true ∧
    on0 (.drillFire (some 0) 63) (gateAt 100) (fun _ cx' => cx'.get (Reg.CH_DRILL_GATE 1) == 2 &&
      (cx'.drillAt 63).state == DrState.done && (cx'.drillAt 63).fired == 1) = true ∧
    on0 (.drillFire (some 0) 63) (gateAt 101) (fun _ cx' => cx'.get (Reg.CH_DRILL_GATE 1) == 0 &&
      (cx'.drillAt 63).result == DrResult.missed && cx'.ch.cnt Cnt.CH_CNT_DRILL_MISSED == 1) = true := by decide +kernel
theorem test_drill_order : gates2.ready 0 ∧ (gates2.view 0).dueUpTo (63 : Fin 256) = [62, 63] ∧
    (∀ k ∈ [62, 63], ((gates2.view 0).drillAt k).period = 0 ∧ 0 ≤ shortDiff ((gates2.view 0).drillAt k).time (gates2.view 0).time16) ∧
    ((gates2.view 0).drillAt 62).action = DrAct.gateOpen ∧ ((gates2.view 0).drillAt 63).action = DrAct.gateClose ∧
    ((gates2.view 0).drillAt 62).target % 256 = ((gates2.view 0).drillAt 63).target % 256 ∧
    on0 (.drillFire (some 0) 63) gates2 (fun _ cx' => cx'.get (Reg.CH_DRILL_GATE 1) == 2 &&
      cx'.ch.cnt Cnt.CH_CNT_DRILL_FIRED == 2 && cx'.ch.drillQ == []) = true := by decide +kernel

theorem test_drill_pulse : (gateAt 100).hl.drillAt (7 : Fin 256) = pulseEntry ∧ (gateAt 100).hl.dueUpTo (7 : Fin 256) = [7] ∧
    pulseEntry.period = 0 ∧ (gateAt 100).hl.stu.time16 ≤ pulseEntry.time ∧ pulseEntry.action = DrAct.pulse ∧
    (gateAt 99).hl.dueUpTo (7 : Fin 256) = [] ∧
    onH (.drillFire none 7) (gateAt 100) (fun _ h' => (Sparse.get noPulse h'.pins.trig 15).length == 1 &&
      h'.cnt Cnt.HL_CNT_DRILL_FIRED == 1) = true := by decide +kernel

theorem test_captures :
    let s := head (fun h => { h with pins := { h.pins with trig := [(15, [900])] } }) up
    let v : Word := setF (setF (setF 0 F.HL_DRILL_CAP_CTL_ARM 1) F.HL_DRILL_CAP_CTL_EDGE 1) F.HL_DRILL_CAP_CTL_WINDOW_US 3
    let a := ran (.captureArm 7 v) up
    Sparse.get noPulse s.hl.pins.trig (15 : Fin 16) = [900] ∧ getB v F.HL_DRILL_CAP_CTL_ARM = true ∧
    a.hl.deferred = [] ∧ a.hl.fatal = false ∧ a.hl.flg (Reg.HL_DRILL_CAP_CTL (7 : Fin 8)) F.HL_DRILL_CAP_CTL_ARM = true ∧
    nbit (a.hl.fld (Reg.HL_DRILL_CAP_CTL (7 : Fin 8)) F.HL_DRILL_CAP_CTL_EDGE) (if true then 0 else 1) = true ∧
    (Sparse.get noEnd a.hl.pins.capEnd (7 : Fin 8)).isSome ∧
    Sparse.get noEnd a.hl.pins.capAt (7 : Fin 8) ≠ some a.hl.stu.tick ∧
    (let b := ran (.captureEdge 7 ⟨true, 3⟩) a
     Sparse.get noEnd b.hl.pins.capAt (7 : Fin 8) = some b.hl.stu.tick ∧ onH (.captureEdge 7 ⟨true, 5⟩) b (fun h h' => h' == h) = true) ∧
    onH (.pulseEnd 15) s (fun _ h' => h'.pins.trig == []) = true ∧
    onH (.captureEdge 7 ⟨true, 3⟩) a (fun h h' => (h'.get (Reg.HL_DRILL_CAP_TS_LO 7)).toNat == h.stu.tick.toNat * 8 + 3 && h'.cnt Cnt.HL_CNT_DRILL_CAPTURES == 1 &&
      !h'.flg (Reg.HL_DRILL_CAP_CTL 7) F.HL_DRILL_CAP_CTL_ARM) = true ∧
    onH (.captureTimeout 7) a (fun _ h' => h'.flg (Reg.HL_DRILL_CAP_CTL 7) F.HL_DRILL_CAP_CTL_TIMEOUT) = true := by decide +kernel

/-! ### Run, Stop and the budget -/

/-- Channel 0 in Service in a phase of the power sequencer, with PERMIT. -/
def phased (p : Nat) : State := chan 0 (fun cx => (cx.setPhase p).setf Reg.CH_PWR_STATUS F.CH_PWR_STATUS_PERMIT 1) enabled

/-- With automatic entry and the activation in OPERATION. -/
def auto0 : State := chan 0 (fun cx => (cx.setf Reg.CH_PWR_CTL F.CH_PWR_CTL_AUTO_EN 1).setf Reg.CH_ACT_STATUS F.CH_ACT_STATUS_STATE
  Act.operation) (phased 0)

/-- In entry with the core clock stopped; in Stop; waking. -/
def clkOff (s : State) : State := chan 0 (fun cx => cx.setPwr { cx.ch.pwr with clkOff := true, watch := true }) s
def stopped0 (p : Nat) : State := chan 0 (fun cx => cx.setMode ModeCode.stop) (clkOff (phased p))

theorem test_idle_timer : (phased 0).ready 0 ∧ ((phased 0).view 0).mode = ModeCode.service ∧ ((phased 0).view 0).phase = Phase.run ∧
    (((phased 0).view 0).setf Reg.CH_PWR_STATUS F.CH_PWR_STATUS_IDLE_EXPIRED 1).autoOk = false ∧
    (((auto0).view 0).setf Reg.CH_PWR_STATUS F.CH_PWR_STATUS_IDLE_EXPIRED 1).autoOk = true ∧ (auto0.view 0).hoSource = false ∧
    (up.view 0).mode ≠ ModeCode.service := by decide +kernel

theorem test_stop_request : (phased 0).ready 0 ∧ ((phased 0).view 0).mode ≠ ModeCode.halted ∧ getB 0x200 F.CH_PWR_CTL_WAKE = false ∧
    ((phased 0).view 0).mayForce = true ∧ (up.view 0).mayForce = false ∧
    on0 (.stopRequest 0 0x200) (phased 0) (fun _ cx' => cx'.phase == Phase.entering && cx'.ch.pwr.forced) = true ∧
    on0 (.stopRequest 0 0x203) up (fun _ cx' => cx'.phase == Phase.run) = true := by decide +kernel

/-- The Granary gleans; an upstream frame is partly sent. -/
def gleaning0 : State := chan 0 (fun cx => cx.setf Reg.CH_GR_GLEAN F.CH_GR_GLEAN_ACTIVE 1) (phased 1)

theorem test_stop_entry : (phased 1).ready 0 ∧ ((phased 1).view 0).phase = Phase.entering ∧
    (phased 1).chans[(0 : ChanId)].coreStopped = false ∧ ((phased 1).view 0).mode = ModeCode.service ∧
    (phased 1).chans[(0 : ChanId)].ds.cipherQ = [] ∧
    (let a := chan 0 (fun cx => cx.setMode ModeCode.acquire) (phased 1)
     a.ready 0 ∧ (a.view 0).phase = Phase.entering ∧ (a.view 0).mode ≠ ModeCode.service ∧ a.chans[(0 : ChanId)].coreStopped = false ∧
     on0 (.stopEntry 0) a (fun cx cx' => cx' == cx) = true) ∧
    ((chan 0 (fun cx => cx.setPwr { cx.ch.pwr with forced := true }) (phased 1)).view 0).refuser = none ∧
    ((phased 1).view 0).refuser = some 5 := by decide +kernel

theorem test_stop_entered : (phased 4).ready 0 ∧ ((phased 4).view 0).phase = Phase.aborting ∧
    (clkOff (phased 1)).ready 0 ∧ ((clkOff (phased 1)).view 0).phase = Phase.entering ∧
    (clkOff (phased 1)).chans[(0 : ChanId)].coreStopped = true ∧
    ((clkOff (phased 1)).view 0).mode = ModeCode.service ∧ (phased 4).chans[(0 : ChanId)].ds.cipherQ = [] ∧
    ((clkOff (phased 1)).view 0).fld Reg.CH_WAKE_SRC F.CH_WAKE_SRC_SRC = 0 ∧
    ((chan 0 (fun cx => cx.put Reg.CH_WAKE_SRC 1) (clkOff (phased 1))).view 0).fld Reg.CH_WAKE_SRC F.CH_WAKE_SRC_SRC ≠ 0 ∧
    on0 (.stopAbortDone 0) (phased 4) (fun _ cx' => cx'.phase == Phase.run) = true ∧
    on0 (.stopEntered 0) (clkOff (phased 1)) (fun _ cx' => cx'.phase == Phase.stopped && cx'.mode == ModeCode.stop) = true ∧
    on0 (.stopEntered 0) (chan 0 (fun cx => cx.put Reg.CH_WAKE_SRC 1) (clkOff (phased 1))) (fun _ cx' =>
      cx'.phase == Phase.waking && cx'.ch.cnt Cnt.CH_CNT_PWR_WAKE_IN_ENTRY == 1) = true := by decide +kernel

theorem test_wakes : (stopped0 2).ready 0 ∧ ((stopped0 2).view 0).phase = Phase.stopped ∧
    ((stopped0 2).view 0).mode ≠ ModeCode.halted ∧ getB 0x100 F.CH_PWR_CTL_STOP = false ∧
    (phased 1).ready 0 ∧ ((phased 1).view 0).phase = Phase.entering ∧ ((phased 0).view 0).phase = Phase.run ∧
    (stopped0 2).hl.fwUp = true ∧ ((stopped0 2).view 0).fld Reg.CH_STOP_TIMER F.CH_STOP_TIMER_MAX_MS = 0 ∧
    ((chan 0 (fun cx => cx.setf Reg.CH_STOP_TIMER F.CH_STOP_TIMER_MAX_MS 5) (stopped0 2)).view 0).fld Reg.CH_STOP_TIMER
      F.CH_STOP_TIMER_MAX_MS ≠ 0 ∧
    on0 (.wakeRequest 0 (.host 0x100)) (stopped0 2) (fun _ cx' => cx'.phase == Phase.waking && cx'.get Reg.CH_WAKE_SRC == 1) = true ∧
    on0 (.wakeRequest 0 (.host 0x100)) (phased 1) (fun _ cx' => cx'.phase == Phase.entering && cx'.get Reg.CH_WAKE_SRC == 1) = true ∧
    on0 (.wakeRequest 0 .firmware) (stopped0 2) (fun _ cx' => cx'.phase == Phase.waking && cx'.get Reg.CH_WAKE_SRC == 256) = true := by
  decide +kernel

/-- Every group's signature stored as its rows stand. -/
def storeSeals (cx : Cx) : Cx :=
  cx.setPwr { cx.ch.pwr with seals := (List.range 50).map (cx.signature cx.ch.pwr.since) }
/-- Waking, with the seals stored. -/
def sealing (f : Cx → Cx) : State := chan 0 storeSeals (chan 0 f (stopped0 3))
def sealed0 : State := sealing id

theorem storeSeals_failures (cx : Cx) (ues : List Nat) (hb : cx.ch.badRows = []) :
    (storeSeals cx).settled.sealFailures [] ues = (List.range 50).filter ues.contains :=
  Cx.sealFailures_kept _ _ hb rfl
theorem sealing_failures (f : Cx → Cx) (ues : List Nat) (hb : ((chan 0 f (stopped0 3)).view 0).ch.badRows = [])
    (hi : (storeSeals ((chan 0 f (stopped0 3)).view 0)).id = 0) :
    ((sealing f).view 0).sealFailures [] ues = (List.range 50).filter ues.contains := by
  have h : (sealing f).view 0 = (storeSeals ((chan 0 f (stopped0 3)).view 0)).settled := State.view_putView _ _ _ hi
  rw [h]; exact storeSeals_failures _ _ hb
theorem sealed0_failures (ues : List Nat) : (sealed0.view 0).sealFailures [] ues = (List.range 50).filter ues.contains :=
  sealing_failures _ _ (by decide +kernel) (by decide +kernel)

/- No error at all; one of tree bank 5; one of tree bank 0. -/
theorem test_seals : (([] : List SealFlip).foldl Cx.flip (sealed0.view 0)).sealFailures [] (([] : List (Fin 50)).map Fin.val) = [] ∧
    (([] : List SealFlip).foldl Cx.flip (sealed0.view 0)).sealFailures [] (([31] : List (Fin 50)).map Fin.val) = [31] ∧
    (([] : List SealFlip).foldl Cx.flip (sealed0.view 0)).sealFailures [] (([26] : List (Fin 50)).map Fin.val) = [26] := by
  refine ⟨?_, ?_, ?_⟩ <;> rw [List.foldl_nil, sealed0_failures] <;> decide

/-- Waking from Stop-dark with a gate held; with an arm held; and after 2^31 ns with a Drill entry armed. -/
def sealedDark : State := sealing fun cx => cx.setPwr { cx.ch.pwr with watch := false, gates := [(33, true)] }
def sealedArm : State := sealing fun cx => { (cx.setSlot 1 SlotState.build) with ch := { (cx.setSlot 1 SlotState.build).ch with armHeld := [(1, 9)] } }
def sealedLong : State := sealing fun cx => ((cx.putDrill 63 gateEntry).setDrillQ [63]).onHl fun h => { h with stu := { h.stu with tick := 0x80000000 } }

theorem test_seals_held : (∀ s ∈ [sealedDark, sealedArm, sealedLong], (s.view 0).sealFailures [] [] = []) := by
  intro s hs
  simp only [List.mem_cons, List.not_mem_nil, or_false] at hs
  obtain rfl | rfl | rfl := hs <;> exact sealing_failures _ [] (by decide +kernel) (by decide +kernel)

theorem test_wake_held : (sealedDark.view 0).phase = Phase.waking ∧ sealedDark.chans[(0 : ChanId)].pwr.watch = false ∧
    sealedDark.chans[(0 : ChanId)].pwr.gates = [(33, true)] ∧ sealedArm.chans[(0 : ChanId)].armHeld = [(1, 9)] ∧
    (sealedArm.view 0).slotState 1 = SlotState.build ∧ (sealedArm.view 0).armValid = false ∧
    2 ^ 31 ≤ (sealedLong.hl.stu.tick - sealedLong.chans[(0 : ChanId)].pwr.since).toNat ∧
    ((sealedLong.view 0).drillAt 63).en = true := by decide +kernel

theorem test_wake_complete :
    let s := sealed0
    s.ready 0 ∧ s.hl.ho = none ∧ (s.view 0).phase = Phase.waking ∧ s.chans[(0 : ChanId)].pwr.watch = true ∧
    s.chans[(0 : ChanId)].pwr.gates = [] ∧ s.chans[(0 : ChanId)].drill = [] ∧ s.chans[(0 : ChanId)].armHeld = [] ∧
    s.chans[(0 : ChanId)].rings.stopLines = [] ∧ s.chans[(0 : ChanId)].ds.entry = [] ∧
    s.chans[(0 : ChanId)].act.to2 = false ∧ (s.view 0).mode = ModeCode.stop ∧ 26 ≤ (31 : Fin 50).val ∧ (31 : Fin 50).val < 32 := by
  decide +kernel

theorem test_brown_out : (stopped0 2).ready 0 ∧ ((stopped0 2).view 0).brownOutArmed = true ∧ ((phased 0).view 0).brownOutArmed = false ∧ (stopped0 2).chans[(0 : ChanId)].coreStopped = true ∧
    ((stopped0 2).view 0).mode = ModeCode.stop ∧ (phased 0).chans[(0 : ChanId)].coreStopped = false ∧
    ((phased 0).view 0).phase = Phase.run ∧ ((inMode ModeCode.halted).view 0).mode = ModeCode.halted ∧
    on0 (.padRelease 0) (chan 0 (fun cx => cx.setf Reg.CH_PWR_STATUS F.CH_PWR_STATUS_PAD_HELD 1) (phased 0)) (fun _ cx' =>
      !cx'.flg Reg.CH_PWR_STATUS F.CH_PWR_STATUS_PAD_HELD) = true := by decide +kernel

/-- The host port island at frequency 1 and voltage 2; and a change in progress. -/
def dvfs12 : State := head (fun h => (h.setf Reg.HL_DVFS_STATUS F.HL_DVFS_STATUS_HP_F 1).setf Reg.HL_DVFS_STATUS F.HL_DVFS_STATUS_HP_V 2) up
def dvfsOn (v : Bool) : State := head (fun h => { h with dvfs := some ⟨true, v, 3⟩ }) up

theorem test_dvfs : dvfs12.up ∧ dvfs12.hl.deferred = [] ∧ dvfs12.dvfsReject false false (2 : Fin 4) = 0 ∧
    dvfs12.hl.fld Reg.HL_DVFS_STATUS (dvfsF false) ≠ (2 : Fin 4).val ∧
    dvfs12.hl.fld Reg.HL_DVFS_STATUS (dvfsV false) < (3 : Fin 4).val ∧
    dvfs12.dvfsReject false true (1 : Fin 4) = 0 ∧ dvfs12.hl.fld Reg.HL_DVFS_STATUS (dvfsV false) ≠ (1 : Fin 4).val ∧
    (0 : Fin 4).val < dvfs12.hl.fld Reg.HL_DVFS_STATUS (dvfsF false) ∧
    (dvfsOn true).up ∧ (dvfsOn true).hl.dvfs = some ⟨true, true, 3⟩ ∧
    onH (.dvfsFreqRequest false 3) dvfs12 (fun _ h' => h'.fld Reg.HL_DVFS_STATUS F.HL_DVFS_STATUS_LAST_REJECT == 1) = true ∧
    onH (.dvfsVoltRequest false 0) dvfs12 (fun _ h' => h'.fld Reg.HL_DVFS_STATUS F.HL_DVFS_STATUS_LAST_REJECT == 2) = true ∧
    onH (.dvfsFreqRequest false 2) dvfs12 (fun _ h' => h'.dvfs == some ⟨false, false, 2⟩) = true ∧
    onH .dvfsFreqDone (dvfsOn false) (fun _ h' => h'.fld Reg.HL_DVFS_STATUS F.HL_DVFS_STATUS_MG_F == 3) = true ∧
    onH .dvfsVoltDone (dvfsOn true) (fun _ h' => h'.fld Reg.HL_DVFS_STATUS F.HL_DVFS_STATUS_MG_V == 3) = true := by decide +kernel

theorem test_budget : up.up ∧ up.floors = 50 ∧ enabled.floors = 80 ∧ up.hl.deferred = [] ∧
    enabled.floors ≤ getF 80 F.HL_PWR_BUDGET_TOKENS ∧ getF 79 F.HL_PWR_BUDGET_TOKENS < enabled.floors ∧
    onH (.budgetWrite 80) enabled (fun _ h' => h'.fld Reg.HL_PWR_BUDGET F.HL_PWR_BUDGET_TOKENS == 80) = true ∧
    onH (.budgetWrite 79) enabled (fun h h' => h'.fld Reg.HL_PWR_BUDGET F.HL_PWR_BUDGET_TOKENS == h.fld Reg.HL_PWR_BUDGET
      F.HL_PWR_BUDGET_TOKENS) = true := by decide +kernel

/-! ### The bulk mover and the indirect windows -/

/-- A set's shadow: 16 bytes from host memory at 0x1010 to the firmware image at 0x20. -/
def shadow (n : Nat) (h : Headland) : Headland :=
  ((((h.put (Reg.MV_SRC_LO n) 0x1010).put (Reg.MV_DST_LO n) 0x20).put (Reg.MV_COUNT n) 16).setf (Reg.MV_SPACE n)
    F.MV_SPACE_DST_SPACE Space.fwImage).setf (Reg.MV_SPACE n) F.MV_SPACE_SRC_SPACE Space.host
def set7 : State := head (shadow 7) up
def pend7 : State := ran (.moverGo 7 3) set7
def sixteen : List Byte := (List.range 16).map fun k => BitVec.ofNat 8 (k + 1)

theorem test_mover_go : set7.listens ∧ set7.hl.mvPending (7 : Fin 8) = false ∧ pend7.listens ∧ pend7.hl.mvPending (7 : Fin 8) = true ∧
    (set7.hl.put (Reg.MV_CTL 7) (3 &&& 0x7E)).mvCheck 7 = 0 ∧
    ((head (fun h => h.put (Reg.MV_DST_LO 7) 0xFFFFFFFF) set7).hl.put (Reg.MV_CTL 7) (3 &&& 0x7E)).mvCheck 7 = 5 ∧
    onH (.moverGo 7 3) pend7 (fun _ h' => h'.fld (Reg.MV_STATUS 7) F.MV_STATUS_REFUSE == 1) = true := by decide +kernel

theorem test_mover_start : pend7.up ∧ pend7.hl.mvLent (7 : Fin 8) = false ∧ (pend7.hl.mv (7 : Fin 8)).full = false ∧ pend7.hl.mvState (7 : Fin 8) = MvState.idle ∧
    0x1010 = mvDword pend7.hl (Reg.MV_SRC_LO (7 : Fin 8)) (Reg.MV_SRC_HI (7 : Fin 8)) ∧
    0x20 = mvDword pend7.hl (Reg.MV_DST_LO (7 : Fin 8)) (Reg.MV_DST_HI (7 : Fin 8)) ∧
    pend7.hl.fld (Reg.MV_SPACE (7 : Fin 8)) F.MV_SPACE_SRC_SPACE = Space.host ∧
    pend7.hl.fld (Reg.MV_SPACE (7 : Fin 8)) F.MV_SPACE_DST_SPACE = Space.fwImage ∧ pend7.hl.fw.locked = false ∧
    (pend7.hl.get (Reg.MV_COUNT (7 : Fin 8))).toNat = 16 ∧ 0x1010 % 256 + 16 ≤ 256 ∧ 0x20 % 256 + 16 ≤ 256 ∧ sixteen.length = 16 ∧
    onH (.moverStart 7 1 sixteen .none) pend7 (fun _ h' => h'.mvState 7 == MvState.finishing &&
      Sparse.bytes h'.fwImage 0x20 16 == sixteen && (h'.mv 7).readBack) = true := by decide +kernel

/-- The transfer finishing, with a result record to write; running, with one chunk to go; and halted. -/
def fin7 : State :=
  ran (.moverStart 7 1 sixteen .none) (ran (.moverGo 7 0x13) set7)
def run7 : State := head (fun h => { h.setf (Reg.MV_STATUS 7) F.MV_STATUS_STATE MvState.running with
  movers := [(7, { Mover.idle with src := 0x1010, dst := 0x20, count := 16, space := h.get (Reg.MV_SPACE 7) })] }) set7
def tired7 : State := head (fun h => h.setMv 7 { h.mv 7 with tries := 3 }) run7
def halt7 : State := head (fun h => h.setf (Reg.MV_STATUS 7) F.MV_STATUS_STATE MvState.halted) set7

theorem test_mover_runs : run7.up ∧ run7.hl.deferred = [] ∧ run7.hl.mvState (7 : Fin 8) = MvState.running ∧
    (run7.hl.mv (7 : Fin 8)).sp false = Space.host ∧ (run7.hl.mv (7 : Fin 8)).done < (run7.hl.mv (7 : Fin 8)).len ∧
    run7.hl.mvLent (7 : Fin 8) = false ∧ tired7.hl.mvState (7 : Fin 8) = MvState.running ∧
    (run7.hl.mv (7 : Fin 8)).tries < run7.hl.fld (Reg.MV_CFG (7 : Fin 8)) F.MV_CFG_RETRY ∧
    tired7.hl.fld (Reg.MV_CFG (7 : Fin 8)) F.MV_CFG_RETRY ≤ (tired7.hl.mv (7 : Fin 8)).tries ∧
    (∀ w ∈ (tired7.hl.mv (7 : Fin 8)).out, w.off = none) ∧
    onH (.moverRetry 7 5 false 0 sixteen .none) tired7 (fun _ h' => h'.mvState 7 == MvState.halted &&
      h'.fld (Reg.MV_STATUS 7) F.MV_STATUS_HALT_CODE == MvHalt.busErr) = true ∧
    halt7.hl.mvState (7 : Fin 8) = MvState.halted := by decide +kernel

/-- One chunk's write outstanding; and eight of them. -/
def wrote (k : Nat) : MvWrite := ⟨BitVec.ofNat 64 (0x8000 + 256 * k), [1, 2, 3], none, false, 0⟩
def posted7 (k : Nat) (s : State) : State := head (fun h => h.setMv 7 { h.mv 7 with out := (List.range k).map wrote }) s

theorem test_mover_full : (posted7 8 run7).up ∧ (posted7 8 run7).hl.mvState (7 : Fin 8) = MvState.running ∧
    (posted7 8 run7).hl.mvLent (7 : Fin 8) = false ∧ ((posted7 8 run7).hl.mv (7 : Fin 8)).full = true ∧
    ((posted7 8 run7).hl.mv (7 : Fin 8)).done < ((posted7 8 run7).hl.mv (7 : Fin 8)).len ∧
    ((posted7 7 run7).hl.mv (7 : Fin 8)).full = false ∧
    onH (.moverRetry 7 0 false 1 sixteen .none) (posted7 8 run7) (fun h h' => h'.mv 7 == h.mv 7) = true := by decide +kernel

theorem test_mover_writes : (posted7 2 set7).up ∧ (posted7 2 set7).hl.deferred = [] ∧
    ((posted7 2 set7).hl.mv (7 : Fin 8)).out = wrote 0 :: [wrote 1] ∧ (wrote 0).record = false ∧ (wrote 0).off = none ∧
    (posted7 2 set7).hl.mvState (7 : Fin 8) ≠ MvState.halted ∧
    (wrote 0).tries < (posted7 2 set7).hl.fld (Reg.MV_CFG (7 : Fin 8)) F.MV_CFG_RETRY ∧
    onH (.hostWriteResponse (.mover 7) 0x7F) (posted7 2 set7) (fun _ h' => h'.mvState 7 == MvState.idle &&
      (h'.mv 7).out == [{ wrote 0 with tries := 1 }, wrote 1]) = true ∧
    onH (.hostWriteResponse (.mover 7) 0x80) (posted7 2 set7) (fun _ h' => h'.mvState 7 == MvState.halted &&
      h'.fld (Reg.MV_STATUS 7) F.MV_STATUS_HALT_CODE == MvHalt.hostFatal) = true := by decide +kernel

theorem test_mover_ends : set7.listens ∧ set7.hl.mvLent (7 : Fin 8) = false ∧ halt7.listens ∧ halt7.hl.mvLent (7 : Fin 8) = false ∧
    run7.listens ∧ fin7.listens ∧ fin7.hl.mvLent (7 : Fin 8) = false ∧ (fin7.hl.mv (7 : Fin 8)).readBack = true ∧ chanSpace ((fin7.hl.mv (7 : Fin 8)).sp true) = false ∧
    set7.hl.mvState (7 : Fin 8) = MvState.idle ∧
    fin7.hl.mvState (7 : Fin 8) = MvState.finishing ∧ getB (fin7.hl.mv (7 : Fin 8)).ctl F.MV_CTL_RESULT_WR = true ∧
    fin7.hl.deferred = [] ∧ fin7.up ∧
    onH (.moverDone 7) fin7 (fun h h' => (h'.mv 7).out.length == (h.mv 7).out.length + 1) = true ∧
    onH (.moverClear 7) halt7 (fun _ h' => h'.mvState 7 == MvState.idle) = true := by decide +kernel

/-- The context aperture at block 15, and the tree aperture at block 31, of channel 0; and one that names no channel. -/
def win (tree : Bool) : State := head (fun h => h.put (iwSel tree) (if tree then 0x1F00 else 0x0F00)) up
def noWin : State := head (fun h => h.put (iwSel false) 0x0011) up
/-- The tree aperture at block 31 of channel 0 in Service. -/
def winS : State := chan 0 (fun cx => cx.setMode ModeCode.service) (win true)
/-- A word of context memory in it. -/
def word0 : State := ran (.windowAccess false (.write64 8189 0x0102030405060708) .none) (win false)

theorem test_windows : (win false).listens ∧ (win true).listens ∧ winS.listens ∧ winS.hl.resetRuns 0 = false ∧
    (win false).hl.resetRuns 0 = false ∧ up.listens ∧ (win false).chans[(0 : ChanId)].coreStopped = false ∧
    (win false).hl.tested (0 : ChanId) = false ∧ (win false).hl.fld (iwSel false) F.HL_IW_TREE_SEL_CHAN = (0 : ChanId).val ∧
    (win false).hl.fld (iwSel false) F.HL_IW_TREE_SEL_BASE = 15 ∧ (win true).hl.fld (iwSel true) F.HL_IW_TREE_SEL_BASE = 31 ∧
    (win false).chans[(0 : ChanId)].badRows = [] ∧ winS.chans[(0 : ChanId)].coreStopped = false ∧
    winS.hl.tested (0 : ChanId) = false ∧ winS.hl.fld (iwSel true) F.HL_IW_TREE_SEL_CHAN = (0 : ChanId).val ∧
    winS.hl.fld (iwSel true) F.HL_IW_TREE_SEL_BASE = 31 ∧ winS.chans[(0 : ChanId)].badRows = [] ∧
    (0xFFFF : Fin 0x10000).val = (31 * 0x10000 + 8 * (8191 : Fin 8192).val) / 32 ∧ (winS.view 0).mode = ModeCode.service ∧
    on0 (.windowAccess true (.read64 8191) (.treeUe 0xFFFF)) winS (fun _ cx' => cx'.mode == ModeCode.halted &&
      cx'.hl.pins.rsp == some (BitVec.allOnes 64, true)) = true ∧
    (win false).chans[(0 : ChanId)].mode = ModeCode.disabled ∧ noWin.listens ∧ 17 ≤ noWin.hl.fld (iwSel false) F.HL_IW_TREE_SEL_CHAN ∧
    (ran (.windowAccess false (.read64 8189) .none) word0).hl.pins.rsp = some (0x0102030405060708, false) ∧
    (ran (.windowAccess true (.read64 0) .none) (win true)).hl.pins.rsp = some (0, false) ∧
    (ran (.windowAccess false (.read64 0) .none) noWin).hl.pins.rsp = some (0, false) ∧
    onH (.windowAccess false (.write32 16383 5) .none) noWin (fun _ h' =>
      h'.fld Reg.HL_IW_STATUS F.HL_IW_STATUS_OFFSET == 0xFFFC) = true ∧
    onH (.windowSelectWrite true 0xFFFFFFFF) up (fun _ h' => h'.get Reg.HL_IW_TREE_SEL == 0x1F1F) = true := by decide +kernel

/-! ### Handover and fallow capacity -/

/-- Channel 16 designated as the fallow channel, and tested; channel 0 in Service; a command waits. -/
def fallow : State := posted (head (fun h => ((h.setf Reg.HL_FM_STATUS F.HL_FM_STATUS_FALLOW_VALID 1).setf Reg.HL_FM_STATUS
  F.HL_FM_STATUS_FALLOW_CH 16).setf Reg.HL_FM_STATUS F.HL_FM_STATUS_TESTED 1) enabled)
/-- What the handover from channel 0 to channel 16 keeps. -/
def copying : Ho := ⟨0, 16, 0x1000, false, false, 0, 3, 5, 0, 0, none, none, [], 0, false, none⟩
/-- That handover, in a phase. -/
def handing (p : Nat) : State :=
  head (fun h => { h.setHoPhase p with ho := some copying })
    (chan 16 (fun cx => (cx.setMode ModeCode.handover).setf Reg.CH_MODE F.CH_MODE_HO_ROLE 2) fallow)
/-- With the source frozen. -/
def frozen (p : Nat) : State := chan 0 (fun cx => (cx.setMode ModeCode.handover).setf Reg.CH_MODE F.CH_MODE_HO_ROLE 1) (handing p)

theorem test_handover : fallow.serving (cmd 0x201 0) 0x0201 ∧
    fallow.hl.deferred = [] ∧ fallow.hl.fmBusy = false ∧ (0 : Fin 32) ≠ 16 ∧ (fallow.view ⟨0, by decide⟩).mode = ModeCode.service ∧
    (fallow.view ⟨0, by decide⟩).phase = Phase.run ∧ fallow.hl.fallowValid = true ∧ fallow.hl.fallowCh = (16 : Fin 32).val ∧
    (fallow.view ⟨16, by decide⟩).mode = ModeCode.disabled ∧ fallow.hl.flg Reg.HL_FM_STATUS F.HL_FM_STATUS_TESTED = true ∧
    (0x1000 : DWord).toNat % 4096 = 0 ∧
    onH (.handover (cmd 0x201 0) 0 16 0x1000 false) fallow (fun _ h' => h'.ho == some { copying with mode := 0, act := 0 } &&
      h'.mvState 6 == MvState.running && h'.mvState 7 == MvState.running) = true := by decide +kernel

theorem test_prepare : (handing 1).up ∧ (handing 1).hl.deferred = [] ∧
    (handing 1).hl.ho = some copying ∧ (handing 1).hl.hoPhase = HoPhase.prepare ∧
    ((handing 1).view 16).mode = ModeCode.handover ∧ (handing 1).hl.wedgedBit (0 : ChanId) = false ∧
    (handing 1).serving (cmd 0x202 0) 0x0202 ∧ (handing 1).hl.hoPhase < HoPhase.resume ∧ copying.waking = false ∧
    copying.hostCfg = false ∧ copying.halts + 1 < 2 ∧ ((handing 1).view 0).mode = ModeCode.service ∧
    (handing 1).chans[(0 : ChanId)].armHeld = [] ∧ (handing 1).chans[(0 : ChanId)].pwr.gates = [] := by decide +kernel

/-- With the host to supply the configuration. -/
def hostFed : State := head (fun h => { h with ho := some { copying with hostCfg := true } }) (handing 1)

theorem test_prepare_aborts : 2 ≤ copying.halts + 2 ∧ hostFed.up ∧ hostFed.hl.deferred = [] ∧
    hostFed.hl.hoPhase = HoPhase.prepare ∧ (hostFed.view 16).mode = ModeCode.handover ∧ hostFed.hl.wedgedBit (0 : ChanId) = false ∧
    (hostFed.view 0).mode = ModeCode.service ∧ hostFed.chans[(0 : ChanId)].armHeld = [] ∧
    hostFed.chans[(0 : ChanId)].pwr.gates = [] ∧ hostFed.hl.versionOk (9 : BitVec 16).toNat = false ∧
    onH (.handoverPrepareDone 2 0 []) (handing 1) (fun _ h' => h'.ho.isNone &&
      h'.fld Reg.HL_FM_HO F.HL_FM_HO_RESULT == HoResult.abortMover) = true ∧
    onH (.handoverPrepareDone 1 9 []) hostFed (fun _ h' => h'.ho.isNone &&
      h'.fld Reg.HL_FM_HO F.HL_FM_HO_RESULT == HoResult.abortCheck) = true := by decide +kernel

theorem test_freeze : (handing 2).hl.hoPhase = HoPhase.freeze ∧ ((handing 2).view 16).mode = ModeCode.handover ∧
    (handing 2).hl.wedgedBit (0 : ChanId) = false ∧ ((handing 2).view 0).mode = ModeCode.service ∧
    (handing 2).chans[(0 : ChanId)].us.bursts = [] ∧ (handing 2).chans[(0 : ChanId)].rings.txq = [] ∧
    (handing 2).chans[(0 : ChanId)].stream.items = [] := by decide +kernel

theorem test_transfer : (frozen 3).hl.hoPhase = HoPhase.transfer ∧ ((frozen 3).view 16).mode = ModeCode.handover ∧
    (frozen 3).chans[(0 : ChanId)].canonical = true ∧
    ((frozen 3).chans[(0 : ChanId)].rings.txq.all fun e => e.2.storing.isNone) = true ∧
    (frozen 3).chans[(0 : ChanId)].ds.cipherQ = [] ∧ (frozen 3).hl.deferred = [] := by decide +kernel

theorem test_switch : (frozen 4).hl.hoPhase = HoPhase.switch_ ∧ ((frozen 4).view 0).mode = ModeCode.handover ∧
    (frozen 4).chans[(0 : ChanId)].armHeld = [] ∧ (frozen 4).chans[(0 : ChanId)].pwr.gates = [] ∧
    (frozen 4).hl.fld Reg.HL_STU_CTL F.HL_STU_CTL_CHAN = 0 ∧
    (head (fun h => h.setf Reg.HL_STU_CTL F.HL_STU_CTL_CHAN 3) (frozen 4)).hl.fld Reg.HL_STU_CTL F.HL_STU_CTL_CHAN ≠ (0 : ChanId).val := by
  decide +kernel

/-- RESUME, with the target in Service; and still in Handover. -/
def resumed : State := chan 16 (fun cx => cx.setMode ModeCode.service) (handing 5)

theorem test_resume : resumed.up ∧ resumed.hl.hoPhase = HoPhase.resume ∧ (resumed.view 16).mode = ModeCode.service ∧
    ((handing 5).view 16).mode = ModeCode.handover ∧
    onH .handoverResumeDone resumed (fun _ h' => h'.ho.isNone && h'.fld Reg.HL_FM_HO F.HL_FM_HO_RESULT == HoResult.doneAcquire) = true ∧
    onH .handoverResumeDone (head (fun h => { h with ho := some { copying with result := some HoResult.doneService } }) resumed)
      (fun _ h' => h'.ho.isNone && h'.fld Reg.HL_FM_HO F.HL_FM_HO_RESULT == HoResult.doneService) = true ∧
    onH .handoverResumeDone (handing 5) (fun h h' => h == h') = true := by decide +kernel

theorem test_config_export : (posted up).serves (cmd 0x203 0) 0x0203 0 ∧ (posted up).hl.fmBusy = false ∧
    ((posted up).view 0).mode = ModeCode.disabled ∧ (0x1000 : DWord).toNat % 4096 = 0 ∧ (posted up).hl.stream.items = [] ∧
    (posted up).hl.fatal = false := by decide +kernel

/-- No channel is designated. -/
def noSpare : State := head (fun h => h.setf Reg.HL_FM_STATUS F.HL_FM_STATUS_FALLOW_VALID 0) (posted up)

theorem test_fallow : noSpare.serves (cmd 0x204 0) 0x0204 0 ∧ noSpare.hl.deferred = [] ∧ (noSpare.view 0).mode = ModeCode.disabled ∧ noSpare.hl.fallowValid = false ∧ (noSpare.view 0).recState = Rec.empty ∧
    noSpare.chans[(0 : ChanId)].fm.clean = true ∧ fallow.serves (cmd 0x204 0) 0x0204 0 ∧ fallow.serving (cmd 0x205 0) 0x0205 ∧ fallow.hl.fmBusy = false ∧ fallow.hl.fallowValid = true ∧
    fallow.hl.fallowCh = (16 : ChanId).val ∧ (fallow.view 16).mode = ModeCode.disabled ∧
    (head (fun h => { h with testing := some (cmd 0x205 0) }) fallow).ready 16 ∧
    on0 (.fallowDesignate (cmd 0x204 0)) noSpare (fun _ cx' => cx'.hl.fallowValid && cx'.hl.fallowCh == 0) = true := by decide +kernel

/-- A migration of bank 23 to fallow bank 1. -/
def migrating : State := chan 0 (fun cx => ((cx.setf Reg.CH_GR_MIGRATE F.CH_GR_MIGRATE_BUSY 1).setf Reg.CH_GR_MIGRATE
  F.CH_GR_MIGRATE_BANK 23).setf Reg.CH_GR_MIGRATE F.CH_GR_MIGRATE_TARGET 1) enabled

/-- With its fallow bank retired meanwhile. -/
def spareGone : State := chan 0 (fun cx => cx.setf Reg.CH_GR_BANKS F.CH_GR_BANKS_FB1_RETIRED 1) migrating
/-- With the last cell of the bank allocated. -/
def lostRow : State := chan 0 (fun cx => cx.setCell 12287 ⟨0, true, true, 2, 1, false, true⟩) migrating

theorem test_migration : (posted enabled).serves (cmd 0x206 0) 0x0206 0 ∧ (posted enabled).hl.ho = none ∧
    ((posted enabled).view 0).migrating = false ∧ ((posted enabled).view 0).mode = ModeCode.service ∧
    ((posted enabled).view 0).freeFb = some 0 ∧ (23 : Fin 32).val < 24 ∧ 24 ≤ (24 : Fin 32).val ∧
    migrating.ready 0 ∧ migrating.hl.deferred = [] ∧ migrating.chans[(0 : ChanId)].coreStopped = false ∧
    (migrating.view 0).flg Reg.CH_GR_MIGRATE F.CH_GR_MIGRATE_BUSY = true ∧
    lostRow.ready 0 ∧ lostRow.hl.deferred = [] ∧ lostRow.chans[(0 : ChanId)].coreStopped = false ∧
    (lostRow.view 0).flg Reg.CH_GR_MIGRATE F.CH_GR_MIGRATE_BUSY = true ∧
    (12287 : Fin 12288).val / 512 = (lostRow.view 0).fld Reg.CH_GR_MIGRATE F.CH_GR_MIGRATE_BANK ∧
    (lostRow.view 0).cellCopied (12287 : Fin 12288).val = true ∧ lostRow.chans[(0 : ChanId)].gr.copied = [] ∧
    (lostRow.view 0).fbRetired 1 = false ∧ (migrating.view 0).fbRetired 1 = false ∧ (lostRow.view 0).cellCopied 11776 = false ∧
    (lostRow.view 0).fld Reg.CH_GR_MIGRATE F.CH_GR_MIGRATE_TARGET = 1 ∧ (spareGone.view 0).fbRetired 1 = true ∧
    spareGone.ready 0 ∧ spareGone.hl.deferred = [] ∧ spareGone.chans[(0 : ChanId)].coreStopped = false ∧
    (spareGone.view 0).flg Reg.CH_GR_MIGRATE F.CH_GR_MIGRATE_BUSY = true ∧
    on0 (.migrationSwitch ⟨0, []⟩ true) spareGone (fun _ cx' => !cx'.fbValid 1 && cx'.bufBank 23 == 23) = true ∧
    on0 (.migrationSwitch ⟨0, [.bufUe 12287]⟩ true) lostRow (fun _ cx' => cx'.ch.badRows == [.bufUe 12287]) = true ∧
    on0 (.migrationSwitch ⟨0, []⟩ true) migrating (fun _ cx' => cx'.fbValid 1 && cx'.fbBank 1 == 23 && cx'.bufBank 23 == 25) = true := by
  decide +kernel

theorem test_wear : up.up ∧ up.hl.fwUp = true ∧ ∀ b ∈ physBanks, up.chans[(16 : ChanId)].fld b.err F.CH_GR_ERR_UE = 0 ∧
    up.chans[(16 : ChanId)].fld b.err F.CH_GR_ERR_CE < up.hl.fld Reg.HL_FM_WEAR_CFG F.HL_FM_WEAR_CFG_CE_LIMIT := by decide +kernel

/-! ### The management core -/

/-- A mailbox ring with control `v` at host index 10 and core index 12. -/
def mring (r : Nat) (v : Word) : State := head (fun h => ((h.put (mbCtl r) v).put (mbCore r) 12).put (mbHost r) 10) up

theorem test_mb_tail : (posted up).listens ∧ up.listens ∧ up.hl.flg Reg.HL_MB_CMD_CTL F.HL_MB_CMD_CTL_EN = false ∧
    idxDiff 0 ((posted up).hl.get Reg.HL_MB_CMD_HEAD) < idxDiff ((posted up).hl.get Reg.HL_MB_CMD_TAIL) ((posted up).hl.get Reg.HL_MB_CMD_HEAD) ∧
    (0 : Word) ≠ (posted up).hl.get Reg.HL_MB_CMD_TAIL ∧ (posted up).hl.get Reg.HL_MB_CMD_TAIL = 1 ∧
    onH (.mbCmdTail 1) (posted up) (fun h h' => h == h') = true ∧
    onH (.mbCmdTail 0) (posted up) (fun _ h' => h'.cnt Cnt.HL_CNT_MB_BAD_TAIL == 1 && h'.get Reg.HL_MB_CMD_TAIL == 1) = true ∧ (posted up).hl.flg Reg.HL_MB_CMD_CTL F.HL_MB_CMD_CTL_EN = true ∧
    idxDiff ((posted up).hl.get Reg.HL_MB_CMD_TAIL) ((posted up).hl.get Reg.HL_MB_CMD_HEAD) ≤ idxDiff 64 ((posted up).hl.get Reg.HL_MB_CMD_HEAD) ∧
    idxDiff 64 ((posted up).hl.get Reg.HL_MB_CMD_HEAD) ≤ 2 ^ (posted up).hl.fld Reg.HL_MB_CMD_CTL F.HL_MB_CMD_CTL_SIZE_LOG2 ∧
    2 ^ (posted up).hl.fld Reg.HL_MB_CMD_CTL F.HL_MB_CMD_CTL_SIZE_LOG2 < idxDiff 65 ((posted up).hl.get Reg.HL_MB_CMD_HEAD) ∧
    (65 : Word) ≠ (posted up).hl.get Reg.HL_MB_CMD_TAIL ∧
    onH (.mbCmdTail 64) (posted up) (fun _ h' => h'.get Reg.HL_MB_CMD_TAIL == 64) = true ∧
    onH (.mbCmdTail 65) (posted up) (fun _ h' => h'.cnt Cnt.HL_CNT_MB_BAD_TAIL == 1) = true := by decide +kernel

theorem test_mb_rings : (mring 2 0x60).listens ∧ (mring 2 0x61).listens ∧ (mring 2 0x60).hl.flg (mbCtl (2 : Fin 3)) F.HL_MB_CMD_CTL_EN = false ∧
    getB 0x61 F.HL_MB_CMD_CTL_EN = true ∧ mbSizeOk (2 : Fin 3) (getF 0x61 F.HL_MB_CMD_CTL_SIZE_LOG2) = true ∧
    (mring 2 0x60).hl.mb.notes = [] ∧ mbSizeOk (0 : Fin 3) (getF 0x31 F.HL_MB_CMD_CTL_SIZE_LOG2) = false ∧
    (mring 2 0x61).hl.flg (mbCtl (2 : Fin 3)) F.HL_MB_CMD_CTL_EN = true ∧ getB 0x60 F.HL_MB_CMD_CTL_EN = false ∧
    2 = (if true then 2 else 1) ∧ idxDiff 12 ((mring 2 0x61).hl.get (mbHost 2)) ≤
      idxDiff ((mring 2 0x61).hl.get (mbCore 2)) ((mring 2 0x61).hl.get (mbHost 2)) ∧
    idxDiff ((mring 2 0x61).hl.get (mbCore 2)) ((mring 2 0x61).hl.get (mbHost 2)) < idxDiff 13 ((mring 2 0x61).hl.get (mbHost 2)) ∧
    onH (.mbConsWrite true 12) (mring 2 0x61) (fun _ h' => h'.get (mbHost 2) == 12) = true ∧
    onH (.mbConsWrite true 13) (mring 2 0x61) (fun _ h' => h'.get (mbHost 2) == 10) = true := by decide +kernel

theorem test_mb_reread : (posted up).hl.get Reg.HL_MB_CMD_HEAD ≠ (posted up).hl.get Reg.HL_MB_CMD_TAIL ∧
    (posted up).hl.mb.dead = false ∧ (posted up).hl.deferred = [] ∧ (posted up).hl.stream.items = [] ∧
    0 < (0x7F : Byte).toNat ∧ (0x7F : Byte).toNat < 0x80 ∧ 0x80 ≤ (0x80 : Byte).toNat ∧
    onH (.mbCommandReread 0x80) (posted up) (fun _ h' => h'.mb.dead && h'.fatal && !h'.canTake) = true := by decide +kernel

/-- Without an image, with a command waiting; a record with a reserved bit set, and ones with a bit of ARGS that no argument
of HANDOVER covers. -/
def imageless : State := posted (head (fun h => h.setFwState FwState.noImage) State.reset)
def reservedBit : CmdHead := { cmd 0x201 0 with word0 := 0x40000201 }
def strayArg (i : Nat) : CmdHead := { cmd 0x201 0 with args := BitVec.ofNat 448 (2 ^ i) }

theorem test_commands : (posted up).heads (cmd 0x405 0) 0x0405 ∧ (cmd 0x405 0).bad 0x0405 = false ∧
    (posted up).hl.stream.items = [] ∧ (posted up).hl.fatal = false ∧ (posted up).hl.deferred = [] ∧
    (posted up).heads reservedBit 0x0201 ∧ (posted up).heads (strayArg 17) 0x0201 ∧ reservedBit.bad 0x0201 = true ∧
    (strayArg 17).bad 0x0201 = true ∧ (strayArg 16).bad 0x0201 = false ∧ (strayArg 447).bad 0x0201 = true ∧
    imageless.heads (cmd 0x201 0) 0x0201 ∧ (cmd 0x201 0).bad 0x0201 = false ∧ imageless.hl.noImage = true := by decide +kernel

/-- A record whose mark is that of the ring's second lap. -/
def lap2 : CmdHead := { cmd 0x405 0 with word0 := 0x80000405 }

theorem test_records : (posted up).up ∧ (posted up).hl.canTake = true ∧ (posted up).hl.marked (cmd 0x107 0) = true ∧
    (cmd 0x107 0).opcode ∉ knownOps ∧ imageless.hl.canTake = true ∧ imageless.hl.marked (cmd 0x107 0) = true ∧ up.up ∧
    up.hl.canTake = false ∧ (posted up).hl.marked lap2 = false ∧
    onH (.fwInfo lap2) (posted up) (fun h h' => h == h') = true ∧
    onH (.fwInfo (cmd 0x107 0)) (posted up) (fun _ h' => h'.get Reg.HL_MB_CMD_HEAD == 1 && h'.stream.items.any fun
      | .data .mailbox _ bs => bs.drop 4 |>.take 1 |>.contains 0x10
      | _ => false) = true := by decide +kernel

/-- Transmit queue 255 enabled in Service. -/
def mgmt0 : State := posted (chan 0 (fun cx => cx.put (qCtl true 255) 0x361) enabled)

theorem test_mgmt_send : mgmt0.serves (cmd 0x301 0) 0x0301 0 ∧ (cmd 0x301 0).ecc = .none ∧ (posted up).serves (cmd 0x301 0) 0x0301 0 ∧ 0 < (2044 : BitVec 14).toNat ∧ (2044 : BitVec 14).toNat ≤ 2044 ∧
    2044 < (2045 : BitVec 14).toNat ∧ (0 : BitVec 14).toNat = 0 ∧ [(7 : Byte)].length = (1 : BitVec 14).toNat ∧
    (mgmt0.view 0).mode = ModeCode.service ∧ (mgmt0.view 0).qEn true (255 : Fin 256) = true ∧
    ((posted up).view 0).mode ≠ ModeCode.service := by decide +kernel

theorem test_key_item : up.ready 0 ∧ up.hl.fwUp = true ∧ up.chans[(0 : ChanId)].coreStopped = false ∧ up.hl.pins.testEn = false ∧
    on0 (.keyItem 0 255 true (some (true, 99))) up (fun _ cx' => keyIndex 255 2 ∈ cx'.ch.keys && cx'.ch.cpReq.isSome) = true ∧
    on0 (.keyItem 0 255 true none) up (fun _ cx' => keyIndex 255 2 ∉ cx'.ch.keys) = true := by decide +kernel

/-- Readings with one above the limit, for the third time. -/
def hot : Vector (BitVec 16) 21 := (Vector.replicate 21 20).set 20 0x7FFF
def hotState : State := head (fun h => { h with beyond := [(20, 2)] }) up

theorem test_sensors : hotState.up ∧ hotState.hl.deferred = [] ∧ Sparse.get (fun _ => 0) hotState.hl.beyond (20 : Fin 21) = 2 ∧
    hotState.hl.flg Reg.HL_SNS_ALARM_T ⟨(20 : Fin 21), 1⟩ = false ∧
    signed 16 (hotState.hl.fld Reg.HL_SNS_TEMP_LIM F.HL_SNS_TEMP_LIM_ALARM) < signed 16 (hot[(20 : Fin 21)]).toNat := by decide +kernel

/-- The header of an image of 256 bytes, with SVN 6 and version 5, in the firmware image memory. -/
def goodImage : Sparse Byte := Sparse.putBytes [] 0 (leBytes 4 0x4D524946 ++ leBytes 2 1 ++ leBytes 2 6 ++ leBytes 4 5 ++ leBytes 4 256 ++ leBytes 2 1 ++ leBytes 2 2)
/-- That image; and one staged. -/
def image5 : FwImage := ⟨true, false, 6, 5, 1, 2⟩
def staged0 : State := posted (head (fun h => { h with fw := { h.fw with staged := some image5, accepted := 0, started := true } }) up)

theorem test_fw_stage : (posted up).heads (cmd 0x401 0) 0x0401 ∧ (cmd 0x401 0).bad 0x0401 = false ∧
    (posted (head (fun h => { h with fwImage := goodImage }) up)).heads (cmd 0x401 0) 0x0401 ∧ imageHeaderOk goodImage = true ∧
    imageOf goodImage = image5 ∧
    (head (fun h => { h with fwImage := goodImage }) up).hl.fwCounter ≤ (imageOf goodImage).svn ∧ imageHeaderOk (posted up).hl.fwImage = false := by decide +kernel

theorem test_fw_write : staged0.heads (cmd 0x402 0) 0x0402 ∧ (cmd 0x402 0).bad 0x0402 = false ∧
    (posted up).heads (cmd 0x402 0) 0x0402 ∧ (posted up).hl.slotHeld (b2n true) = false ∧ staged0.hl.slotHeld (b2n true) = false ∧
    staged0.hl.slotHeld (b2n false) = true ∧ staged0.hl.fw.staged = some image5 ∧ staged0.hl.fw.writing = none ∧
    (posted up).hl.fw.staged = none ∧
    onH (.fwWrite (cmd 0x402 0) true) staged0 (fun _ h' => h'.fw.writing == some (1, image5) && !(h'.fw.slot 1).valid) = true := by decide +kernel

/-- The write of slot B in progress; slot B valid; on trial, ready or not; restarting after a revert. -/
def writing0 : State := ran (.fwWrite (cmd 0x402 0) true) staged0
def written0 : State := posted (ran (.fwWriteDone true) writing0)
def trial0 (ready : Bool) : State := posted (head (fun h =>
  { (h.setFwState FwState.trial).setf Reg.HL_FW_STATUS F.HL_FW_STATUS_SLOT 1 with fw := { h.fw with ready := ready } }) written0)

theorem test_fw_write_done : writing0.up ∧ writing0.hl.fw.writing = some (b2n true, image5) ∧
    written0.hl.fw.slot 1 = image5 ∧ written0.heads (cmd 0x403 0) 0x0403 ∧ (cmd 0x403 0).bad 0x0403 = false ∧
    written0.hl.fw.started = true ∧ (posted up).heads (cmd 0x403 0) 0x0403 ∧ (posted up).hl.deferred = [] ∧ written0.fwActivateCheck (b2n true) = MbStatus.ok ∧
    (posted up).fwActivateCheck (b2n true) ≠ MbStatus.ok ∧ written0.hl.deferred = [] := by decide +kernel

/-- On trial, not ready, with channel 0 in RANGING and its TO1 run out meanwhile. -/
def actTrial : State := chan 0 (fun cx => ({ cx with ch := { cx.ch with act := { cx.ch.act with to1 := true } } } : Cx).setf
  Reg.CH_ACT_STATUS F.CH_ACT_STATUS_STATE Act.ranging) (trial0 false)

theorem test_fw_trial : (trial0 false).up ∧ (trial0 false).hl.deferred = [] ∧ (trial0 false).hl.fwState = FwState.trial ∧
    (trial0 false).hl.fw.ready = false ∧ (trial0 false).hl.fw.accepted < 2 ∧ (trial0 true).hl.fw.ready = true ∧
    (trial0 true).serving (cmd 0x404 0) 0x0404 ∧ (actTrial.up) ∧ actTrial.hl.deferred = [] ∧ actTrial.hl.fwState = FwState.trial ∧
    actTrial.hl.fw.ready = false ∧ (actTrial.view 0).actState ≠ Act.off ∧ actTrial.chans[(0 : ChanId)].coreStopped = false ∧
    (actTrial.view 1).actState = Act.off ∧ on0 .fwReady actTrial (fun cx cx' => cx.ch.act.to1 && !cx'.ch.act.to1) = true ∧
    (head (fun h => h.setFwState FwState.restarting) up).hl.fwState = FwState.restarting ∧
    onH (.fwAccept (cmd 0x404 0) true) (trial0 true) (fun _ h' => h'.fwState == FwState.running && h'.fw.accepted == 1 &&
      h'.fw.counter == 6) = true := by decide +kernel

/-- A copy entry of a parsed frame waits. -/
def copied (h : Headland) : Headland := { h with core := [⟨false, 0, 60, 0, 0, 7, 0, false, [5]⟩] }

theorem test_copies : (head copied up).up ∧ (head copied up).hl.copyDiscard ⟨false, 0, 60, 0, 0, 7, 0, false, [5]⟩ = true := by decide +kernel

/-- A record is due; one waits to be kept. -/
def logging : State := head (fun h => { h with mb := { h.mb with logDue := [⟨LogKind.bankRetired, 0, [1, 2, 3, 4]⟩] } }) up
def keeping (f : Bool) : State := head (fun h => { h with mb := { h.mb with psDue := [[9]], psFail := f } }) up

theorem test_log : logging.listens ∧ logging.up ∧ logging.hl.fwUp = true ∧ logging.hl.deferred = [] ∧
    logging.hl.mb.logDue = [⟨LogKind.bankRetired, 0, [1, 2, 3, 4]⟩] ∧ (keeping false).hl.mb.psDue = [[9]] ∧
    (keeping true).hl.mb.psFail = true ∧
    onH (.logRecord 2) logging (fun _ h' => h'.get Reg.HL_LOG_SEQ == 1 && (Sparse.bytes h'.log 32 4 == [1, 0, 0, 0])) = true ∧
    onH (.logPersist true) (keeping false) (fun _ h' => h'.mb.psLog == [[9]] && h'.mb.psDue.isEmpty) = true := by decide +kernel

/-! ### Performance, host port and frame port -/

/-- Calendar second 900 has begun; the second that ended had ten line frames, one of them errored. -/
def second : State := head (fun h => { h with stu := { h.stu with sec := 901 } }) (chan 0 (fun cx => { cx with ch := { cx.ch with
  pm := { cx.ch.pm with lf := 10, err := 1, mon := true, last := some 899 } } }) enabled)
/-- In a sync loss, after nine severe seconds; and after a backward step. -/
def lossy : State := chan 0 (fun cx => ({ cx with ch := { cx.ch with pm := { cx.ch.pm with loss := true } } } : Cx).setf
  Reg.CH_PM_STATUS F.CH_PM_STATUS_RUN 9) second
def stepped : State := chan 0 (fun cx => { cx with ch := { cx.ch with pm := { cx.ch.pm with last := some 900 } } }) second
/-- Closed bins wait for their copy. -/
def closed0 : State := chan 0 (fun cx => ({ cx with ch := { cx.ch with pm := { cx.ch.pm with due15 := true, due24 := true } } } : Cx).put
  Reg.CH_PM_LAST15_ES 77) enabled

/-- A line frame of the second that ended still arrives, and may yet be found errored. -/
def awaiting (s : State) : State := chan 0 (fun cx => { cx with ch := { cx.ch with ds := { cx.ch.ds with
  cur := some ⟨5, DsMode.g9807, 0, 100, 0, true, true, true, false, []⟩ } } }) s

theorem test_pm_held : second.chans[(0 : ChanId)].pm.held = none ∧ (second.view 0).pmUndecided = false ∧
    lossy.chans[(0 : ChanId)].pm.held = none ∧ (lossy.view 0).pmUndecided = false ∧ (lossy.view 0).unavail = false ∧
    stepped.ready 0 ∧ stepped.chans[(0 : ChanId)].pm.held = none ∧ (awaiting second).ready 0 ∧
    ((awaiting second).view 0).pmUndecided = true ∧ (awaiting second).chans[(0 : ChanId)].pm.held = none ∧
    (awaiting second).chans[(0 : ChanId)].pm.last = some 899 ∧ (awaiting second).chans[(0 : ChanId)].pm.mon = true ∧
    (awaiting second).hl.stu.sec = 901 ∧
    on0 (.pmSecond 0) (awaiting second) (fun _ cx' => cx'.ch.pm.held == some ⟨900, 10, 1, false, true, 0⟩ && cx'.ch.pm.lf == 0) = true := by
  decide +kernel

theorem test_pm_second : second.ready 0 ∧ second.hl.stu.sec ≠ 0 ∧ second.chans[(0 : ChanId)].pm.last = some 899 ∧
    899 < second.hl.stu.sec - 1 ∧ second.chans[(0 : ChanId)].coreStopped = false ∧ second.chans[(0 : ChanId)].pm.mon = true ∧
    second.chans[(0 : ChanId)].pm.loss = false ∧ 10 * second.chans[(0 : ChanId)].pm.err < 3 * second.chans[(0 : ChanId)].pm.lf ∧
    (second.view 0).unavail = false ∧ second.chans[(0 : ChanId)].pm.open_ = [] ∧ lossy.chans[(0 : ChanId)].pm.loss = true ∧
    (lossy.view 0).fld Reg.CH_PM_STATUS F.CH_PM_STATUS_RUN = 9 ∧ stepped.chans[(0 : ChanId)].pm.last = some 900 ∧
    stepped.hl.stu.sec - 1 ≤ 900 ∧ closed0.chans[(0 : ChanId)].pm.due15 = true ∧ closed0.chans[(0 : ChanId)].pm.due24 = true ∧
    closed0.hl.fwUp = true ∧ closed0.hl.deferred = [] ∧
    on0 (.pmSecond 0) second (fun _ cx' => cx'.get Reg.CH_PM_LAST_SEC == 1 && cx'.ch.pm.lf == 0) = true ∧
    on0 (.pmSecond 0) lossy (fun _ cx' => cx'.unavail) = true ∧
    on0 (.pmPrevCopy 0 false) closed0 (fun _ cx' => cx'.hl.get (Reg.HL_PM_PREV15_START_LO 0 + 4) == 77) = true := by decide +kernel

theorem test_timeouts : lineRead.ready 0 ∧ (lineRead.view 0).readPending (.doorbell (28 : Fin 36)) = true ∧
    (lineRead.view 0).modeIn [ModeCode.disabled, ModeCode.halted] = false ∧ (storing.view 0).finishing = true ∧
    ((storing.view 0).txq (200 : Fin 256)).storing.isSome = true ∧ run7.hl.mvState (7 : Fin 8) = MvState.running ∧
    (run7.hl.mv (7 : Fin 8)).sp false = Space.host := by decide +kernel

/-- A write waits for its answer on channel 0's stream, the Headland's, and set 7's. -/
def chWrite (n : Nat) : State := chan 0 (fun cx => { cx with ch := { cx.ch with
  stream := { cx.ch.stream with items := [.data .mailbox 64 [1, 2]], tries := n, issued := true } } }) enabled
def hlWrite : State := head (fun h => { h with stream := { h.stream with items := [.data .mailbox 64 [1, 2], .event evRec], issued := true } }) up
def resultWrite : MvWrite := ⟨64, [1], none, true, 0⟩
def mvWrite : State := head (fun h => { h with movers := [(7, { Mover.idle with out := [resultWrite] })] }) up

theorem test_write_answers : (chWrite 2).ready 0 ∧ (chWrite 2).chans[(0 : ChanId)].stream.items = [.data .mailbox 64 [1, 2]] ∧
    (chWrite 2).chans[(0 : ChanId)].stream.issued = true ∧ hlWrite.hl.stream.issued = true ∧
    (chWrite 2).hl.deferred = [] ∧ enabled.chans[(0 : ChanId)].stream.issued = false ∧ enabled.ready 0 ∧ ((chWrite 2).view 0).mode = ModeCode.service ∧ (chWrite 2).chans[(0 : ChanId)].stream.tries < 3 ∧
    3 ≤ (chWrite 3).chans[(0 : ChanId)].stream.tries ∧ hlWrite.up ∧
    hlWrite.hl.stream.items = .data .mailbox 64 [1, 2] :: [.event evRec] ∧ evRec.source < 512 ∧
    (hlWrite.writing .headland) = true ∧ (mvWrite.hl.mv (7 : Fin 8)).out = resultWrite :: [] ∧
    on0 (.hostWriteResponse (.chan 0) 0) (chWrite 2) (fun _ cx' => cx'.ch.stream.items.isEmpty) = true ∧
    onH (.hostWriteResponse .headland 0x80) hlWrite (fun _ h' => h'.fatal && h'.cnt Cnt.HL_CNT_HP_HL_DISCARD == 1) = true ∧
    onH (.hostWriteResponse (.mover 7) 0) mvWrite (fun _ h' => (h'.mv 7).out == []) = true := by decide +kernel

/-- The frame port enabled; with no free cell to reserve. -/
def fpOn : State := chan 0 (fun cx => cx.setf Reg.CH_PORT_CFG F.CH_PORT_CFG_FP_EN 1) enabled
def fpFull : State := chan 0 (fun cx => cx.setf Reg.CH_GR_STATUS F.CH_GR_STATUS_FREE_COUNT 0) fpOn
/-- Lane 15 with one delivery of channel 0. -/
def deliv : FpDeliv := ⟨⟨0, 64, false, true, 0, 0, 0, 0, 0, 0⟩, false, false, false⟩
def laned (f : Bool) : State := chan 0 (fun cx => { cx with ch := { (frameIn 0 cx).ch with lanes := [(15, [deliv])] } }) (if f then fpOn else enabled)
/-- The same while the pads are held. -/
def laneHeld : State := chan 0 (fun cx => cx.setf Reg.CH_PWR_STATUS F.CH_PWR_STATUS_PAD_HELD 1) (laned true)

theorem test_fp_in : fpOn.ready 0 ∧ (fpOn.view 0).fpiOpen = true ∧ (fpiMeta 0x8000).bad = true ∧ (fpiMeta 2).bad = false ∧
    ((fpFull.view 0).reserve (cellsFor (max (fpiMeta 2).len 60 + 4))).2 = false ∧ (fpFull.view 0).fpiOpen = true ∧
    ((fpOn.view 0).reserve (cellsFor (max (fpiMeta 2).len 60 + 4))).2 = true ∧
    on0 (.fpInFrame 0 0x8000 [1, 2] false .none) fpOn (fun _ cx' => cx'.ch.cnt Cnt.CH_CNT_FP_IN_BAD_META == 1) = true ∧
    on0 (.fpInFrame 0 2 [1, 2] false .none) fpFull (fun _ cx' => cx'.ch.fpWait) = true ∧
    on0 (.fpInFrame 0 2 [1, 2, 3] false .none) fpOn (fun _ cx' => cx'.ch.cnt Cnt.CH_CNT_FP_IN_LEN_ERR == 1) = true := by decide +kernel

theorem test_fp_out : (laned true).hl.pins.testEn = false ∧ laneHeld.hl.pins.testEn = false ∧ (laned false).hl.pins.testEn = false ∧
    (laned true).ready 0 ∧ ((laned true).view 0).running = true ∧ ((laned true).view 0).fpEn = true ∧
    ((laned true).view 0).lane (15 : Fin 16) = deliv :: [] ∧ (∀ k < 15, ((laned true).view 0).lane k = []) ∧
    (0x8000 : BitVec 16).getLsbD (15 : Fin 16) = true ∧ (0x7FFF : BitVec 16).getLsbD (15 : Fin 16) = false ∧
    (((laned true).view 0).checkChain deliv.frame.cell).2 = .whole ∧ deliv.waited = false ∧
    ((laned true).view 0).flg Reg.CH_PWR_STATUS F.CH_PWR_STATUS_PAD_HELD = false ∧ (laned true).chans[(0 : ChanId)].badRows = [] ∧
    (laned true).chans[(0 : ChanId)].gr.ring.length + (((laned true).view 0).chainFrom 63 deliv.frame.cell).1.length ≤ numCells ∧
    (0 : Fin 12288).val ∈ (((laned true).view 0).chainFrom 63 deliv.frame.cell).1.take
      ((((laned true).view 0).deliverLen deliv.frame deliv.trunc + 255) / 256) ∧
    laneHeld.ready 0 ∧ (laneHeld.view 0).running = true ∧ (laneHeld.view 0).flg Reg.CH_PWR_STATUS F.CH_PWR_STATUS_PAD_HELD = true ∧
    (laned false).ready 0 ∧ ((laned false).view 0).running = true ∧
    ((laned false).view 0).flg Reg.CH_PWR_STATUS F.CH_PWR_STATUS_PAD_HELD = false ∧
    on0 (.fpOutFrame 0 0 .none) laneHeld (fun _ cx' => cx'.lane 15 == [deliv]) = true ∧
    on0 (.fpOutFrame 0 0 (.bufUe 0)) (laned true) (fun _ cx' => cx'.lane 15 == [] &&
      cx'.ch.cnt Cnt.CH_CNT_FP_OUT_ABORTED == 1 && cx'.ch.cnt Cnt.CH_CNT_GR_ECC_UNCORR == 1) = true ∧
    ((laned false).view 0).fpEn = false ∧
    on0 (.fpOutFrame 0 0x7FFF .none) (laned true) (fun _ cx' => cx'.lane 15 == [] && cx'.ch.cnt Cnt.CH_CNT_FP_OUT_FRAMES == 1) = true ∧
    on0 (.fpOutFrame 0 0x8000 .none) (laned true) (fun _ cx' => cx'.ch.cnt Cnt.CH_CNT_FP_XOFF_WAIT == 1 && cx'.ch.fpo == none) = true ∧
    on0 (.fpOutFrame 0 0 .none) (laned false) (fun _ cx' => cx'.lane 15 == [] && cx'.ch.cnt Cnt.CH_CNT_FP_OUT_DROP == 1) = true := by
  decide +kernel

theorem test_fp_en : fpOn.takes 0 ∧ (∀ n < 16, (fpOn.view 0).lane n = []) ∧ getB 0xFF F.CH_PORT_CFG_FP_EN = true ∧
    getB 0xFFFFFFFE F.CH_PORT_CFG_FP_EN = false ∧
    on0 (.fpEnWrite ⟨0, .none⟩ 0xFFFFFFFE) fpOn (fun _ cx' => !cx'.fpEn) = true := by decide +kernel

/-! ### The whole block -/

theorem test_step : step { up with pending := [.heartbeat 3, .pmSecond 4] } = exec (.heartbeat 3) { up with pending := [.pmSecond 4] } := rfl

/-- One cycle with no command waiting: a nanosecond at 1 GHz; none while the reset is held. -/
theorem test_idle :
    (match step up with | .next t => t.hl.stu.tick == up.hl.stu.tick + 1 && t.pending == [] | _ => false) = true ∧
    (let s := head (fun h => { h with pins := { h.pins with resetHeld := true } }) up
     match step s with | .next t => t.hl.stu == s.hl.stu | _ => false) = true := by decide +kernel

/-- A requested device reset that is due, and one that is not; two streams with a write to issue, and the turn behind the
first; and a glean at cell 12279 with an empty ring. -/
def dueAt (a : DWord) : State := head (fun h => { h with pins := { h.pins with resetAt := some a } }) up
def twoReady : State := head (fun h => { h with turn := 17 }) (chan 16 (fun cx => { cx with ch := { cx.ch with
  stream := { cx.ch.stream with items := [.data .mailbox 64 [1, 2]] } } }) (chan 0 (fun cx => { cx with ch := { cx.ch with
  stream := { cx.ch.stream with items := [.data .mailbox 64 [1, 2]] } } }) enabled))
def gleanAt (p : Nat) : State := chan 0 (fun cx => { cx.setf Reg.CH_GR_GLEAN F.CH_GR_GLEAN_POS p with ch := {
  (cx.setf Reg.CH_GR_GLEAN F.CH_GR_GLEAN_POS p).ch with gr := { cx.ch.gr with ring := [] } } }) (ran (.gleanGo 0) enabled)

theorem test_cycle_reset : (dueAt 1).up ∧ (dueAt 1).hl.pins.resetAt = some 1 ∧ up.hl.pins.resetAt = none ∧ (dueAt 1).pending = [] ∧
    (match step (dueAt 1) with | .next t => t.hl.pins.resetHeld | _ => false) = true ∧
    (match step (dueAt 2) with | .next t => !t.hl.pins.resetHeld | _ => false) = true := by decide +kernel

theorem test_cycle_turn : twoReady.up ∧ twoReady.hl.pins.resetAt = none ∧ twoReady.cycle.hl.pins.testEn = false ∧
    twoReady.cycle.hl.turn = 17 ∧ twoReady.cycle.turnReady ((twoReady.cycle.hl.turn + 1) % 18) = true ∧
    twoReady.cycle.turnReady ((twoReady.cycle.hl.turn + 0) % 18) = false ∧
    (match step twoReady with
      | .next t => t.hl.turn == 1 && t.chans[(0 : ChanId)].stream.issued && !t.chans[(16 : ChanId)].stream.issued
      | _ => false) = true ∧
    (head (fun h => { h with pins := { h.pins with testEn := true } }) twoReady).cycle.hl.pins.testEn = true ∧
    (∀ n < 18, up.cycle.turnReady n = false) := by decide +kernel

theorem test_cycle_glean : (gleanAt 12279).ready 0 ∧ (gleanAt 12279).pending = [] ∧ (gleanAt 12279).hl.ho = none ∧
    ((gleanAt 12279).view 0).gleaning = true ∧ ((gleanAt 12279).view 0).modeIn [ModeCode.stop, ModeCode.halted] = false ∧
    (gleanAt 12279).chans[(0 : ChanId)].badRows = [] ∧ ((gleanAt 12279).view 0).grPos + 8 < numCells ∧
    (gleanAt 12279).chans[(0 : ChanId)].gr.ring.length + 8 ≤ numCells ∧ (gleanAt 12279).chans[(0 : ChanId)].us.txEn = false ∧
    (∀ i < 8, (((gleanAt 12279).view 0).cell (((gleanAt 12279).view 0).grPos + i)).alloc = false ∧
      (((gleanAt 12279).view 0).cell (((gleanAt 12279).view 0).grPos + i)).inconsistent = false) ∧
    (match step (gleanAt 12279) with
      | .next t => (t.view 0).grPos == 12287 && t.chans[(0 : ChanId)].gr.ring == [12279, 12280, 12281, 12282, 12283, 12284, 12285, 12286]
      | _ => false) = true := by decide +kernel

theorem test_reset : State.reset.queueOk = true ∧ State.reset.memsWf = true ∧ State.reset.hl.get Reg.HL_PWR_BUDGET = 640 ∧
    State.reset.chans[(16 : ChanId)].flg Reg.CH_MODE F.CH_MODE_FALLOW = true ∧
    State.reset.chans[(15 : ChanId)].flg Reg.CH_MODE F.CH_MODE_FALLOW = false := by decide +kernel

theorem test_halted : (inMode ModeCode.halted).listens ∧ (inMode ModeCode.halted).hl.resetRuns 0 = false ∧ (stopped0 2).listens ∧
    (stopped0 2).hl.resetRuns 0 = false ∧ (inMode ModeCode.halted).ready 0 ∧ (inMode ModeCode.halted).chans[(0 : ChanId)].coreStopped = false ∧
    (inMode ModeCode.halted).chans[(0 : ChanId)].mode = ModeCode.halted ∧ (stopped0 2).ready 0 ∧
    (stopped0 2).chans[(0 : ChanId)].coreStopped = true ∧
    on0 (.fpEnWrite ⟨0, .none⟩ 1) (inMode ModeCode.halted) (fun cx cx' => cx == cx') = true ∧
    on0 (.fpEnWrite ⟨0, .none⟩ 1) (stopped0 2) (fun _ cx' => cx'.ch.cnt Cnt.CH_CNT_PWR_STOPPED_ACCESS == 1) = true := by decide +kernel

/-- Commands of one channel and of a handover meet the hypotheses of isolation; each answers a next state. -/
theorem test_isolation : (Instr.tsqPop 0).chan? = some 0 ∧ (5 : ChanId) ≠ 0 ∧ (frozen 4).hl.ho.isSome = true ∧
    (∀ ho ∈ (frozen 4).hl.ho, (5 : ChanId) ≠ chanOf ho.src ∧ (5 : ChanId) ≠ chanOf ho.tgt) ∧ nbit (1 : BitVec 17).toNat 5 = false ∧
    (5 : ChanId).val ≠ (0 : Fin 32).val ∧ (5 : ChanId).val ≠ (16 : Fin 32).val ∧
    (∀ ho ∈ up.hl.ho, (5 : ChanId) ≠ chanOf ho.src ∧ (5 : ChanId) ≠ chanOf ho.tgt) ∧
    (∀ ho, (frozen 4).hl.ho = some ho → (3 : ChanId).val ≠ ho.src ∧ (3 : ChanId).val ≠ ho.tgt) ∧
    (∀ k < 17, nbit (1 : Word).toNat k = nbit (1 : BitVec 17).toNat k) ∧ StreamId.mover 7 ≠ .chan 5 ∧
    up.hl.fld (iwSel true) F.HL_IW_TREE_SEL_CHAN ≠ (5 : ChanId).val ∧
    up.hl.fld (Reg.MV_SPACE (7 : Fin 8)) F.MV_SPACE_SRC_CHAN ≠ (5 : ChanId).val ∧
    up.hl.fld (Reg.MV_SPACE (7 : Fin 8)) F.MV_SPACE_DST_CHAN ≠ (5 : ChanId).val ∧
    (run7.hl.mv (7 : Fin 8)).chan false ≠ (5 : ChanId).val ∧ (run7.hl.mv (7 : Fin 8)).chan true ≠ (5 : ChanId).val ∧
    after (.hlRstChanReq 1) (frozen 4) (fun t => t.chans[(16 : ChanId)] != (frozen 4).chans[(16 : ChanId)]) = true ∧
    after (.hlRstChanReq 8) (frozen 4) (fun t => t.chans[(16 : ChanId)] == (frozen 4).chans[(16 : ChanId)] &&
      t.chans[(3 : ChanId)] != (frozen 4).chans[(3 : ChanId)]) = true ∧
    after (.tsqPop 0) enabled (fun t => t.chans[(5 : ChanId)] == enabled.chans[(5 : ChanId)]) = true := by decide +kernel

theorem test_held_reset :
    let s := head (fun h => { h with pins := { h.pins with resetHeld := true } }) enabled
    s.hl.pins.resetHeld = true ∧ Instr.pmSecond 3 ≠ .deviceResetDone ∧ Instr.deviceResetDone ∉ [Instr.pmSecond 3, .chResetGo 0 0x5A170001] ∧
    after (.registerWrite 0x2004 false 5) s (fun t => t.hl.pins.rsp == some (0, true)) = true ∧
    after (.chResetGo 0 0x5A170001) s (fun t => t.chans == s.chans) = true := by decide +kernel

theorem test_memories : enabled.memsWf = true ∧ (Instr.pmSecond 3).storesTree = false ∧ (Instr.pmSecond 3).storesImage = false ∧
    (Instr.pmSecond 3).storesKeys = false ∧ (Instr.pmSecond 3).storesLog = false ∧ (Instr.pmSecond 3).storesPersistent = false := by
  decide +kernel

/-! ### Words and well-formedness -/

/-- The table gives no row any bits, so a word spells no command. -/
theorem test_words : decodeTableWord 0 0 = none ∧ decodeTableWord 32 0xFFFFFFFF = none ∧
    State.reset.withFetchWord 32 5 = State.reset := ⟨rfl, rfl, rfl⟩

/-- Payloads of 2^14 bytes, one more than an envelope header can name. -/
def tooLong : List Byte := List.replicate 16384 0

theorem tooLong_length : tooLong.length = 16384 := List.length_replicate

theorem test_wf_payloads :
    (Instr.envelopeRx 0 0 .ok 0 tooLong .none).wellFormed = false ∧
    (Instr.cipherReturn 0 0 0 tooLong false 0 .none).wellFormed = false ∧
    (Instr.burstDue 0 [⟨tooLong, 0, false, 0⟩] .none).wellFormed = false ∧
    (Instr.mgmtSend (cmd 0x301 0) 1 0 tooLong).wellFormed = false := by
  refine ⟨?_, ?_, ?_, ?_⟩ <;>
    simp only [Instr.wellFormed, List.all_cons, List.all_nil, tooLong_length] <;> decide

theorem test_wf_accesses :
    (Instr.registerWrite 0x2001 false 0).wellFormed = false ∧ (Instr.registerWrite 0x2004 true 0).wellFormed = false ∧
    (Instr.registerWrite 0x2004 false 0x100000000).wellFormed = false ∧ (Instr.registerWrite 0x2004 false 0xFFFFFFFF).wellFormed = true ∧
    (Instr.counterLowRead 0x2002).wellFormed = false ∧ (Instr.stoppedAccess 0 0x2004 true none).wellFormed = false ∧
    (Instr.stoppedAccess 0 0x2004 false (some 0x100000000)).wellFormed = false ∧
    (Instr.unalignedTargetAccess 0x2004 false none).wellFormed = false ∧ (Instr.unalignedTargetAccess 0x2004 true none).wellFormed = true ∧
    (Instr.unalignedTargetAccess 0x2003 false (some 0x100000000)).wellFormed = false := by decide

theorem test_wf_operands :
    (Instr.hlRstChanReq 0).wellFormed = false ∧ (Instr.lineFrameStart 0 ⟨0, 0, true, false, none, .ok, [], [], []⟩).wellFormed = false ∧
    (Instr.lineFrameStart 0 ⟨0, 0, true, true, none, .ok, [], [], []⟩).wellFormed = true ∧
    (Instr.dsMgmtMessage 0 false [.assignId 3] []).wellFormed = false ∧ (Instr.dsMgmtMessage 0 false [] [[1]]).wellFormed = false ∧
    (Instr.doorbellLineRead 0 3 [1]).wellFormed = false ∧ (Instr.descriptorFetch 0 true 3 0 []).wellFormed = false ∧
    (Instr.descriptorFetch 0 true 3 0 (List.replicate 9 (List.replicate 32 0))).wellFormed = false ∧
    (Instr.descriptorFetch 0 true 3 0 [[1]]).wellFormed = false ∧
    (Instr.descriptorFetch 0 true 3 0 (List.replicate 8 (List.replicate 32 0))).wellFormed = true ∧
    (Instr.ownReread 0 true 3 [1]).wellFormed = false ∧ (Instr.hostReadRetry 0 (.doorbell 3) 0).wellFormed = false ∧
    (Instr.txBufferReadError 0 3 [] 0).wellFormed = false ∧ (Instr.todInMessage [1] true).wellFormed = false ∧
    (Instr.tuMsgArm 0 0 0 1000000000 0).wellFormed = false ∧ (Instr.tuMsgArm 0 0 0 999999999 0).wellFormed = true ∧
    (Instr.wakeComplete 0 [] ⟨[3, 3], []⟩).wellFormed = false ∧ (Instr.wakeComplete 0 [⟨0, 131072, 1⟩] ⟨[], []⟩).wellFormed = false ∧
    (Instr.wakeComplete 0 [⟨0, 131071, 1⟩, ⟨48, 262143, 1⟩] ⟨[49, 3], []⟩).wellFormed = true ∧
    (Instr.fallowTestDone [3, 3] false).wellFormed = false ∧ (Instr.handoverPrepareDone 0 0 [(6, 0)]).wellFormed = false := by
  decide +kernel

end Sys2Proof.Tests
end

section
/-!
SUPPORT. Accesses to a channel's window: where an address leads, what a write leaves in a register without a rule of
its own (R20, R25), and what a read of a 64-bit counter answers and latches (R26). Settles O2.
-/

namespace Sys2Proof.Machine

open Sys2Proof

/-! ### Where an access leads (R25, R593) -/

/-- An address of a channel's window leads to that channel, at its offset there. -/
theorem targetOf_channel {c : ChanId} {addr off : Nat} (ha : addr = 0x40000 + 0x10000 * c.val + off)
    (ho : off < 0x10000) : targetOf addr = .channel c off := by
  have hc : c.val < 17 := c.isLt
  have hq : (addr - 0x40000) / 0x10000 = c.val := by omega
  have hr : addr % 0x10000 = off := by omega
  rw [targetOf, if_neg (by omega), if_neg (by omega), if_neg (by omega), dif_pos (by omega)]
  simp only [hq, hr]

/-- A 32-bit access of a channel's window is aligned where its offset is. -/
theorem aligned_channel {c : ChanId} {addr off : Nat} (ha : addr = 0x40000 + 0x10000 * c.val + off)
    (h4 : off % 4 = 0) : aligned addr false = true := by
  simp only [aligned, beq_iff_eq, Bool.false_eq_true, if_false]
  omega

/-- An aligned 32-bit write at an offset of a channel's window is a write access to that window. -/
theorem State.targetAccess_chWrite (s : State) {c : ChanId} {addr off : Nat} (v : DWord)
    (ha : addr = 0x40000 + 0x10000 * c.val + off) (ho : off < 0x10000) (h4 : off % 4 = 0) :
    s.targetAccess addr false (some v) = s.chWrite c off false v := by
  simp only [State.targetAccess, aligned_channel ha h4, if_true, State.targetWrite, targetOf_channel ha ho]

/-- An aligned 32-bit read at an offset of a channel's window is a read access to that window. -/
theorem State.targetAccess_chRead (s : State) {c : ChanId} {addr off : Nat}
    (ha : addr = 0x40000 + 0x10000 * c.val + off) (ho : off < 0x10000) (h4 : off % 4 = 0) :
    s.targetAccess addr false none = s.chRead c off false := by
  simp only [State.targetAccess, aligned_channel ha h4, if_true, State.targetRead, targetOf_channel ha ho]

/-- While the core clock runs, no access to the channel is stopped. -/
theorem State.chStopped_running (s : State) (c : ChanId) (off : Nat) (h : s.chans[c].coreStopped = false) :
    s.chStopped c off = false := by
  rw [State.chStopped, h, Bool.false_and]

/-! ### Writes by access type (R20) -/

/-- Where no register is, a write leaves what is there. -/
theorem mergeWrite_none {rows : List RegRow} {off : Nat} (old v : Word) (h : findRow rows off = none) :
    mergeWrite rows off old v = old := by
  simp only [mergeWrite, h]

/-- A W1C bit written 1 clears, a RW bit takes the value written, and every other bit stays. -/
theorem getLsbD_mergeWrite {rows : List RegRow} {off : Nat} {r : RegRow} (old v : Word)
    (h : findRow rows off = some r) {b : Nat} (hb : b < 32) :
    (mergeWrite rows off old v).getLsbD b =
      if r.w1c.testBit b && v.getLsbD b then false
      else if r.rw.testBit b then v.getLsbD b
      else old.getLsbD b := by
  simp only [mergeWrite, h, BitVec.getLsbD_and, BitVec.getLsbD_or, BitVec.getLsbD_not, BitVec.getLsbD_ofNat, hb,
    decide_true, Bool.true_and]
  generalize r.w1c.testBit b = clr, r.rw.testBit b = wr, v.getLsbD b = new, old.getLsbD b = was
  revert clr wr new was
  decide

/-- The low word of a number on the data bus, bit by bit. -/
theorem getLsbD_lowWord (v : DWord) {b : Nat} (hb : b < 32) :
    (BitVec.ofNat 32 v.toNat).getLsbD b = v.getLsbD b := by
  rw [BitVec.ofNat_toNat, BitVec.getLsbD_setWidth, decide_eq_true hb, Bool.true_and]

/-! ### Registers without a rule of their own (R20) -/

/-- A register without a rule of its own is none of those that have one, and lies in none of their ranges. -/
theorem noOwnRule {off : Nat} (h : chOwnRule off = false) :
    (∀ a, chOwnRule a = true → off ≠ a) ∧ ¬(Reg.CH_IND 0 ≤ off ∧ off < Reg.CH_IND 256) ∧ slotOfReg off = none ∧
      ¬(0x6000 ≤ off ∧ off < 0xA800) ∧ ¬(Reg.CH_DRILL_GATE 0 ≤ off ∧ off < Reg.CH_DRILL_GATE 8) := by
  refine ⟨fun a ha e => ?_, ?_⟩
  · rw [e, ha] at h
    cases h
  · simp only [chOwnRule, Bool.or_eq_false_iff, Option.isSome_eq_false_iff, Option.isNone_iff_eq_none,
      Bool.and_eq_false_iff, decide_eq_false_iff_not] at h
    obtain ⟨⟨⟨⟨-, hind⟩, hslot⟩, hring⟩, hgate⟩ := h
    exact ⟨by omega, hslot, by omega, by omega⟩

/-- Below CH+0x6000 such a register is written by access type. -/
theorem Cx.writeLow_plain (cx : Cx) {off : Nat} (v : Word) (h : chOwnRule off = false) (h4 : off % 4 = 0) :
    cx.writeLow off v = cx.plain off v := by
  obtain ⟨hne, hind, hslot, -, -⟩ := noOwnRule h
  have hcfg : off ≠ 0x3000 := hne _ rfl
  have htpid : off ≠ 0x3004 := hne _ rfl
  have hudp : off ≠ 0x3008 := hne _ rfl
  have hparse : ¬(Reg.CH_PARSE_CFG ≤ off ∧ off ≤ Reg.CH_PARSE_UDP) := by
    simp only [Reg.CH_PARSE_CFG, Reg.CH_PARSE_UDP]
    omega
  simp only [Cx.writeLow, hne Reg.CH_MODE_CTL rfl, hne Reg.CH_DS_CFG rfl, hparse, hne Reg.CH_FRAG_CFG rfl,
    hne Reg.CH_CLS_CFG rfl, hne Reg.CH_SHEAF_CTL rfl, hne Reg.CH_GR_GLEAN rfl, hind, hslot, or_self, if_false]

/-- So it is from CH+0x6000 to CH+0xB000, past the queues and completion rings. -/
theorem Cx.writeRings_plain (cx : Cx) {off : Nat} (v : Word) (h : chOwnRule off = false) (h6 : 0x6000 ≤ off) :
    cx.writeRings off v = cx.plain off v := by
  obtain ⟨hne, -, -, hring, -⟩ := noOwnRule h
  rw [Cx.writeRings, if_neg (by omega), if_neg (by omega), if_neg (by omega), if_neg (hne _ rfl), if_neg (hne _ rfl),
    if_neg (hne _ rfl)]

/-- And so it is from CH+0xB000 on. -/
theorem Cx.writeHigh_plain (cx : Cx) {off : Nat} (v : Word) (h : chOwnRule off = false) :
    cx.writeHigh off v = cx.plain off v := by
  obtain ⟨hne, -⟩ := noOwnRule h
  simp only [Cx.writeHigh, hne Reg.CH_TU_CTL rfl, hne Reg.CH_TU_INTEG rfl, hne Reg.CH_TSQ_POP rfl,
    hne Reg.CH_PWR_CTL rfl, hne Reg.CH_PAD_RELEASE rfl, hne Reg.CH_LANE rfl, hne Reg.CH_DRILL_CMD rfl,
    hne Reg.CH_PORT_CFG rfl, if_false]

/-- A register without a rule of its own is written by access type. -/
theorem Cx.regWrite_plain (cx : Cx) {off : Nat} (v : Word) (h : chOwnRule off = false) (h4 : off % 4 = 0) :
    cx.regWrite off v = cx.plain off v := by
  unfold Cx.regWrite
  split
  next => exact cx.writeLow_plain v h h4
  next hlow =>
    split
    next => exact cx.writeRings_plain v h (by omega)
    next => exact cx.writeHigh_plain v h

/-- A 32-bit write of such a register of a channel that takes writes is a write by access type of its view. -/
theorem State.chWrite_plain (s : State) (c : ChanId) {off : Nat} (v : DWord) (ht : s.takes c)
    (h : chOwnRule off = false) (h4 : off % 4 = 0) :
    s.chWrite c off false v = s.modChan c fun cx => cx.plain off (BitVec.ofNat 32 v.toNat) := by
  obtain ⟨-, hrun, hclk, hmode⟩ := ht
  have hmode : (s.view c).mode ≠ ModeCode.halted := hmode
  obtain ⟨hne, -, -, -, hgate⟩ := noOwnRule h
  simp only [State.chWrite, State.chReg, hrun, s.chStopped_running c off hclk, hne Reg.CH_RESET rfl, hgate,
    Bool.false_eq_true, if_false, State.modChan, hmode, Cx.regWrite_plain _ _ h h4]

/-- Of a channel, a write by access type changes that register alone. -/
theorem Cx.only_plain (cx : Cx) (off : Nat) (v : Word) : Cx.only cx (cx.plain off v) [off] [] :=
  Cx.only_put

/-- The register reads then what its access types leave. -/
@[simp] theorem Cx.get_plain_same (cx : Cx) (off : Nat) (v : Word) :
    (cx.plain off v).get off = mergeWrite chRows off (cx.get off) v :=
  Cx.get_put_same ..

/-! ### Reads of 64-bit counters (R26) -/

/-- The low word of a counter lies in one of the runs of counters. -/
theorem counterAt_self {l : List (Nat × Nat)} {lo : Nat} (h : counterAt l lo = some lo) :
    lo % 8 = 0 ∧ ∃ r ∈ l, r.1 ≤ lo ∧ lo < r.1 + 8 * r.2 := by
  unfold counterAt at h
  split at h
  next hany =>
    simp only [Option.some.injEq] at h
    exact ⟨by omega, by simpa only [List.any_eq_true, Bool.and_eq_true, decide_eq_true_eq] using hany⟩
  next => cases h

/-- Where runs begin at multiples of 8, the high word of a counter stands 4 above its low word. -/
theorem counterAt_high {l : List (Nat × Nat)} {lo : Nat} (hl : ∀ r ∈ l, r.1 % 8 = 0)
    (h : counterAt l lo = some lo) : counterAt l (lo + 4) = some lo := by
  obtain ⟨h8, r, hr, hge, hlt⟩ := counterAt_self h
  have hr8 := hl r hr
  have hany : (l.any fun r => decide (r.1 ≤ lo + 4) && decide (lo + 4 < r.1 + 8 * r.2)) = true :=
    List.any_eq_true.2 ⟨r, hr, by simp only [Bool.and_eq_true, decide_eq_true_eq]; omega⟩
  rw [counterAt, if_pos hany, show (lo + 4) / 8 * 8 = lo by omega]

/-- A channel's counters lie within its window, each at a multiple of 8. -/
theorem chCounters_bounds : ∀ r ∈ chCounters, r.1 % 8 = 0 ∧ r.1 + 8 * r.2 ≤ 0x10000 := by decide

/-- The low word of a channel's counter is at a multiple of 8 in its window. -/
theorem chCounter_bounds {lo : Nat} (h : counterAt chCounters lo = some lo) : lo % 8 = 0 ∧ lo + 8 ≤ 0x10000 := by
  obtain ⟨h8, r, hr, hge, hlt⟩ := counterAt_self h
  have hb := (chCounters_bounds r hr).2
  exact ⟨h8, by omega⟩

/-- The live value of a counter is the counter. -/
theorem Cx.live64_counter (cx : Cx) {lo : Nat} (h : counterAt chCounters lo = some lo) :
    cx.live64 lo = cx.ch.cnt lo := by
  rw [Cx.live64, h, Option.isSome_some, if_pos rfl]

/-- The low 32 bits of a counter as a word. -/
theorem lowWord_eq (v : DWord) : BitVec.ofNat 32 v.toNat = BitVec.extractLsb' 0 32 v := by
  rw [BitVec.extractLsb', Nat.shiftRight_zero]

/-- The high 32 bits of a counter as a word. -/
theorem highWord_eq (v : DWord) : BitVec.ofNat 32 (v.toNat / 2 ^ 32) = BitVec.extractLsb' 32 32 v := by
  rw [BitVec.extractLsb', Nat.shiftRight_eq_div_pow]

/-- The view with the high word of a counter latched. -/
def Cx.latched (cx : Cx) (lo : Nat) : Cx :=
  { cx with ch := { cx.ch with
    latch := Sparse.set noLatch cx.ch.latch lo (some (BitVec.extractLsb' 32 32 (cx.ch.cnt lo))) } }

/-- Of the latches, that counter's alone changes. -/
theorem Cx.get_latched (cx : Cx) (lo o : Nat) :
    Sparse.get noLatch (cx.latched lo).ch.latch o =
      if o = lo then some (BitVec.extractLsb' 32 32 (cx.ch.cnt lo)) else Sparse.get noLatch cx.ch.latch o := by
  rw [Cx.latched, Sparse.get_set]

/-- A read of a counter's low word gives it and latches the high word. -/
theorem Cx.read32_low (cx : Cx) {lo : Nat} (h : counterAt chCounters lo = some lo) :
    cx.read32 lo = (cx.latched lo, BitVec.extractLsb' 0 32 (cx.ch.cnt lo)) := by
  simp only [Cx.read32, chLow, h, Option.some_or, if_true, cx.live64_counter h, lowWord_eq, highWord_eq, Cx.latched]

/-- A read of its high word gives what is latched, or else the live high word, and latches nothing. -/
theorem Cx.read32_high (cx : Cx) {lo : Nat} (h : counterAt chCounters lo = some lo) :
    cx.read32 (lo + 4) =
      (cx, (Sparse.get noLatch cx.ch.latch lo).getD (BitVec.extractLsb' 32 32 (cx.ch.cnt lo))) := by
  have hhi := counterAt_high (fun r hr => (chCounters_bounds r hr).1) h
  have hne : lo + 4 ≠ lo := by omega
  simp only [Cx.read32, chLow, hhi, Option.some_or, hne, if_false, cx.live64_counter h, highWord_eq]

/-- The view after a 32-bit read: what it latches, and its answer on the pins. -/
def Cx.readAnswered (cx : Cx) (off : Nat) : Cx :=
  (cx.read32 off).1.onHl fun h => h.answer (cx.read32 off).2.toNat false

/-- A read changes nothing of which channel it is. -/
@[simp] theorem Cx.readAnswered_id (cx : Cx) (off : Nat) : (cx.readAnswered off).id = cx.id := by
  rw [Cx.readAnswered, Cx.onHl_id, Cx.read32]
  split
  next => rfl
  next => split <;> rfl

/-- A 32-bit read of a channel that runs is answered. -/
theorem State.chRead_running (s : State) (c : ChanId) (off : Nat) (hrun : s.hl.resetRuns c = false)
    (hclk : s.chans[c].coreStopped = false) : s.chRead c off false = s.modChan c fun cx => cx.readAnswered off := by
  simp only [State.chRead, hrun, s.chStopped_running c off hclk, Bool.false_and, Bool.false_eq_true, if_false,
    Cx.readAnswered]

/-- A word answered is the word itself, on the low half of the data bus. -/
theorem Headland.answer_word (h : Headland) (w : Word) :
    h.answer w.toNat false = { h with pins := { h.pins with rsp := some (w.setWidth 64, false) } } := by
  rw [Headland.answer, BitVec.ofNat_toNat]

/-- COUNTER_LOW_READ at an aligned offset of a channel that runs completes as its 32-bit read does. -/
theorem completes_counterLowRead {s : State} {c : ChanId} {addr : BitVec 21} {off : Nat} {P : Cx → Cx → Prop}
    (hl : s.listens) (hrun : s.hl.resetRuns c = false) (hclk : s.chans[c].coreStopped = false)
    (ha : addr.toNat = 0x40000 + 0x10000 * c.val + off) (ho : off < 0x10000) (h4 : off % 4 = 0)
    (hP : P (s.view c) ((s.view c).readAnswered off).settled) :
    completes (.counterLowRead addr) s c P :=
  completes_access (fun cx => cx.readAnswered off) hl (exec_counterLowRead addr s)
    ((s.targetAccess_chRead ha ho h4).trans (s.chRead_running c off hrun hclk)) (Cx.readAnswered_id ..) hP

/-! ### The statement -/

/-- Settles O2: a register without a rule of its own is written by access type alone (`State.chWrite_plain`,
`getLsbD_mergeWrite`), and the two words of a counter read as `Cx.read32_low` and `Cx.read32_high` say. -/
theorem registersWrittenAndCountersRead : Obligations.RegistersWrittenAndCountersRead := by
  unfold Obligations.RegistersWrittenAndCountersRead
  refine ⟨fun s c addr off v ht ha ho h4 hrule => ?_, fun s c addr lo hl hrun hclk hlo ha => ?_,
    fun s c addr lo hl hrun hclk hlo ha => ?_⟩
  · have hw := (s.targetAccess_chWrite v ha ho h4).trans (s.chWrite_plain c v ht hrule h4)
    refine completes_access _ ht.1 (exec_registerWrite addr false v s) hw rfl
      ⟨Cx.only_plain .., fun r hr b hb => ?_, fun hnone => ?_⟩
    · rw [Cx.settled_get, Cx.get_plain_same, getLsbD_mergeWrite _ _ hr hb, getLsbD_lowWord v hb]
    · rw [Cx.settled_get, Cx.get_plain_same, mergeWrite_none _ _ hnone]
  · obtain ⟨h8, hlt⟩ := chCounter_bounds hlo
    refine completes_counterLowRead hl hrun hclk ha (by omega) (by omega) ?_
    rw [Cx.readAnswered, Cx.read32_low _ hlo]
    exact ⟨rfl, (s.view c).get_latched lo, Headland.answer_word ..⟩
  · obtain ⟨h8, hlt⟩ := chCounter_bounds hlo
    refine completes_counterLowRead hl hrun hclk ha (by omega) (by omega) ?_
    rw [Cx.readAnswered, Cx.read32_high _ hlo]
    refine ⟨rfl, (Headland.answer_word ..).trans ?_⟩
    cases Sparse.get noLatch (s.view c).ch.latch lo <;> rfl

end Sys2Proof.Machine
end
